-- ==== Sys2Proof/Word.lean ====
section
/-!
DEFINITION. The word types of the module: bytes of records, images and memory, and the 32-bit words of the Soli engine.
-/
namespace Sys2Proof

/-- One byte of a record, a frame, an image or memory. -/
abbrev Byte := BitVec 8

/-- One 32-bit word of the Soli engine (R189) and of the score's word fields. -/
abbrev Word := BitVec 32

/-- One column ADC code, 10 bits (R120, R127). -/
abbrev Code := BitVec 10

/-- A resistor code, 0 to 15 (Table 03-3). -/
abbrev RzCode := BitVec 4

end Sys2Proof
end

