-- ==== Sys2Proof/Machine/Arith.lean ====
section
/-!
DEFINITION. Bit fields, byte order, rounding and clamping as the manual uses them everywhere (R3, R4, R174), the CRC of R280
and the SHA-256 that R49 names.
-/
namespace Sys2Proof.Machine

/-- The `n` bits of `w` from bit `lo` up (R3). -/
def field (w lo n : Nat) : Nat := w / 2 ^ lo % 2 ^ n

/-- Bit `i` of `w`. -/
def bitAt (w i : Nat) : Bool := w / 2 ^ i % 2 = 1

/-- A field of `n` bits read as two's complement. -/
def signed (n v : Nat) : Int := if v < 2 ^ (n - 1) then (v : Int) else (v : Int) - 2 ^ n

/-- The little-endian value of some bytes (R4). -/
def leNat : List Byte → Nat
  | [] => 0
  | b :: bs => b.toNat + 256 * leNat bs

/-- `n` bytes of `v`, little-endian (R4). -/
def leBytes : Nat → Nat → List Byte
  | 0, _ => []
  | n + 1, v => BitVec.ofNat 8 v :: leBytes n (v / 256)

/-- `n` bytes of `v`, most significant first (the wire order of R324). -/
def beBytes (n v : Nat) : List Byte := (leBytes n v).reverse

/-- The rounded right shift of R174: to nearest, ties away from zero. -/
def rshift (v : Int) (s : Nat) : Int :=
  if s = 0 then v else
    let m : Nat := (v.natAbs + 2 ^ (s - 1)) / 2 ^ s
    if v < 0 then -(m : Int) else (m : Int)

/-- `num / den` rounded to nearest, ties away from zero (R174), for a positive denominator. -/
def roundDiv (num : Int) (den : Nat) : Int :=
  let m : Nat := (2 * num.natAbs + den) / (2 * den)
  if num < 0 then -(m : Int) else (m : Int)

/-- Rounding of an exact fraction to the nearest whole number, ties away from zero (R174). -/
def roundRat (q : Rat) : Int := roundDiv q.num q.den

def clampInt (v lo hi : Int) : Int := max lo (min v hi)

/-- Clearing the low `k` bits of a two's-complement number (R178). -/
def clearLow (v : Int) (k : Nat) : Int := v - v % (2 ^ k : Int)

/-- `k` of R178, R198 and R224 for an effective level. -/
def truncBits (e : Nat) : Nat := if e ≥ 8 then e - 7 else 0

/-- Saturating addition at the top of a counter of `n` bits. -/
def satAdd (n a b : Nat) : Nat := min (a + b) (2 ^ n - 1)

/-- An Int kept as a 32-bit two's-complement number. -/
def wrap32 (v : Int) : Int := signed 32 (v % 2 ^ 32).toNat

/-- `a..b` inclusive. -/
def fromTo (a b : Nat) : List Nat := (List.range (b + 1 - a)).map (a + ·)

/-- The number of one bits among the low `n` bits. -/
def popcount : Nat → Nat → Nat
  | 0, _ => 0
  | n + 1, v => v % 2 + popcount n (v / 2)

/-! ### CRC-16/CCITT-FALSE (R280) -/

def crcBit (c : Nat) : Nat := if c ≥ 0x8000 then Nat.xor (2 * c % 0x10000) 0x1021 else 2 * c

def crcByte (c : Nat) (b : Byte) : Nat :=
  crcBit (crcBit (crcBit (crcBit (crcBit (crcBit (crcBit (crcBit (Nat.xor c (b.toNat * 256)))))))))

/-- The CRC of some bytes: polynomial 0x1021, initial value 0xFFFF, no reflection, no final XOR. -/
def crc16 (bs : List Byte) : Nat := bs.foldl crcByte 0xFFFF

/-! ### SHA-256 (R49; the manual names the function, FIPS 180-4 defines it: PRESUMED, log entry 7) -/

/-- The whole part of the `k`-th root of `n`, bit by bit from bit `b - 1` down; `r` holds the bits found so far. -/
def rootFrom (k n : Nat) : Nat → Nat → Nat
  | 0, r => r
  | b + 1, r => rootFrom k n b (if (r + 2 ^ b) ^ k ≤ n then r + 2 ^ b else r)

/-- The first 64 primes: no prime above 17 divides a composite number below 312. -/
def smallPrimes : List Nat := (fromTo 2 311).filter fun p => (fromTo 2 17).all fun d => p % d ≠ 0 || p = d

/-- The first 32 bits of the fraction of each prime's `k`-th root. -/
def rootFractions (k : Nat) (ps : List Nat) : List Word := ps.map fun p => BitVec.ofNat 32 (rootFrom k (p * 2 ^ (32 * k)) 37 0)

/-- The XOR of three rotations of a word, and of two rotations and a shift. -/
def turn3 (x : Word) (i j k : Nat) : Word := x.rotateRight i ^^^ x.rotateRight j ^^^ x.rotateRight k
def turn2 (x : Word) (i j k : Nat) : Word := x.rotateRight i ^^^ x.rotateRight j ^^^ (x >>> k)

/-- `n` more words of the message schedule, newest first. -/
def schedule : Nat → List Word → List Word
  | 0, w => w
  | n + 1, w => schedule n ((turn2 (w.getD 1 0) 17 19 10 + w.getD 6 0 + turn2 (w.getD 14 0) 7 18 3 + w.getD 15 0) :: w)

/-- One round over the eight working words; `kw` is the sum of the round's constant and schedule word. -/
def hashRound (v : List Word) (kw : Word) : List Word :=
  let x (i : Nat) : Word := v.getD i 0
  let t := x 7 + turn3 (x 4) 6 11 25 + (x 6 ^^^ (x 4 &&& (x 5 ^^^ x 6))) + kw
  let u := turn3 (x 0) 2 13 22 + ((x 0 &&& x 1) ||| (x 2 &&& (x 0 ||| x 1)))
  [t + u, x 0, x 1, x 2, x 3 + t, x 4, x 5, x 6]

/-- One block of 16 words into the hash value. -/
def hashBlock (ks v block : List Word) : List Word :=
  let ws := (schedule 48 block.reverse).reverse
  List.zipWith (· + ·) v ((List.zipWith (· + ·) ks ws).foldl hashRound v)

/-- The big-endian word of up to four bytes. -/
def beWord (bs : List Byte) : Word := BitVec.ofNat 32 (leNat bs.reverse)

/-- `n` pieces of `k` elements. -/
def pieces {α : Type} (k : Nat) : Nat → List α → List (List α)
  | 0, _ => []
  | n + 1, l => l.take k :: pieces k n (l.drop k)

/-- SHA-256 of some bytes, in output order: the message is closed by a one bit, zeros and its length in bits. -/
def sha256 (m : List Byte) : List Byte :=
  let blocks := (m.length + 72) / 64
  let closed := m ++ [(0x80 : Byte)] ++ List.replicate (64 * blocks - m.length - 9) 0 ++ beBytes 8 (8 * m.length)
  let words := (pieces 4 (16 * blocks) closed).map beWord
  let v := (pieces 16 blocks words).foldl (hashBlock (rootFractions 3 smallPrimes)) (rootFractions 2 (smallPrimes.take 8))
  v.flatMap fun w => beBytes 4 w.toNat

end Sys2Proof.Machine
end

