-- ==== Sys2Proof/Config.lean ====
section
/-!
DEFINITION. What the manual leaves open and the model keeps free: opaque constants without a body, of which no proof can see a value.
-/
namespace Sys2Proof.Config

/-- The contents of the repertoire ROM where the manual does not give them (R136, R323): of the six stock scores it gives header constants,
four digest bytes and some declarations (`Machine.romByte`). Cells that are not listed read 0. DESIGN CHOICE, log entry 3. -/
opaque stockRom : List Host.Cell

/-- The output code of an attention job for a query that attends no position at all (no valid slot): R225 divides by
`W`, which is then 0, and states no result. By body offset of the launch record, query and output element, so that it is a function of
image and inputs (R152). DESIGN CHOICE, log entry 4. -/
opaque attentionNoPosition : Nat → Nat → Nat → BitVec 8

/-- The staged gain of a column whose response to the test charge is 0: R326 divides by that response. DESIGN CHOICE, log entry 5. -/
opaque darkGainNoResponse : Nat → Int

/-- How many reads of written words one operation makes: the manual does not lay this down, so the count that held
injection code 6 adds (Table 17-3) is free. DESIGN CHOICE, log entry 6. -/
opaque readsOfOperation : Nat → Nat

/-- What a byte of an OTP word holds whose programming failed its read-back (R325): the manual says only that the word
stays marked. DESIGN CHOICE, log entry 8. -/
opaque failedByte : Nat → BitVec 8

/-- A touch measurement whose decoded sum lies outside the unsigned 16 bits in which R243 expresses it: the manual states no result.
DESIGN CHOICE, log entry 13. -/
opaque measureOutside : Int → BitVec 16

/-- The part's untrimmed oscillator error in steps of 20 ppm: R112 gives its range only, to which the model limits it. The trim keeps the oscillator in that range
(R113). DESIGN CHOICE, log entry 14. -/
opaque oscillatorError : Int

/-- The digest bytes that VERIFY returns for a slot that is empty or whose header is malformed: such a slot has no body to hash.
DESIGN CHOICE, log entry 15. -/
opaque digestOfNoBody : Nat → BitVec 8

/-- The seal and slot states byte of INFO, from the seal and the two slots' first words: Table 16-10 gives no layout. DESIGN CHOICE, log
entry 16. -/
opaque infoStates : Bool → Bool → Bool → BitVec 8

/-- PRESENT and GEST that a wake gesture drives in Pianissimo, from the touch summary word and the pins that the slot applies otherwise: the text
below Table 13-3 says that the verdict map turns WAKEG into a pin verdict and not which, and Table 16-5 gives the map no byte for it. DESIGN CHOICE,
log entry 85. -/
opaque wakeVerdict : BitVec 32 → Bool × BitVec 3 → Bool × BitVec 3

end Sys2Proof.Config
end

