-- ==== Sys2Proof/Syntax.lean ====
section
/-!
DEFINITION. The commands of the block: one constructor of `Instr` per row of spec/opcode_table.json, with the inputs
that the step takes from outside the module as operands.
-/
namespace Sys2Proof

/-- The two image planes (R120). -/
inductive Plane where
  /-- World-facing, 640 by 400. -/
  | w
  /-- Hand-facing, 320 by 320. -/
  | h
deriving DecidableEq, Repr

/-- The level of the PRIV_N pad against the VIO thresholds of R37. -/
inductive PadLevel where
  /-- Below 0.3 VIO. -/
  | low
  /-- Between the two thresholds. -/
  | mid
  /-- Above 0.7 VIO. -/
  | high
deriving DecidableEq, Repr

/-- The results, in ohms, of the two conversions of one resistor measurement (R65): at 10 uA and at 100 uA. -/
structure Measure where
  at10uA : Nat
  at100uA : Nat
deriving DecidableEq, Repr

/-- The six latched straps (R58). -/
structure Straps where
  sel : BitVec 3
  role : Bool
  duet : Bool
  test : Bool
deriving DecidableEq, Repr

/-- A memory error that a step's reads find in one 64-bit word (Table 17-1): a single-bit error, or a multi-bit one. -/
structure Upset where
  /-- Byte address in the shared space of the word, or of a byte of it. -/
  addr : Nat
  multi : Bool
deriving DecidableEq, Repr

/-- The guard field of a Soli instruction (R196): predicate `g`, inverted when `n`. -/
structure Guard where
  g : BitVec 3
  n : Bool
deriving DecidableEq, Repr

/-- The guard that is always true (G = 0, N = 0). -/
def Guard.always : Guard := ⟨0, false⟩

/-- The conditions of CMP and CMPI (R197). -/
inductive Cond where
  | eq | ne | lt | ge | ltu | geu
deriving DecidableEq, Repr

/-- The operations of PLOG (Table 10-3). -/
inductive Lop where
  | and | or | xor | andNot
deriving DecidableEq, Repr

/-- Why a received frame is invalid, as DETAIL of detector 12 names it (Table 17-2). -/
inductive FrameError where
  | crc | type | reserved | incomplete
deriving DecidableEq, Repr

/-- The 16 bytes of a Duet frame as received (R285). -/
abbrev FrameBytes := Vector Byte 16

/-- A Flailo command on the wire after its opcode (R324): address, length, data and CRC. -/
structure FlailoHead where
  addr : BitVec 24
  len : BitVec 16
  data : List Byte
  crc : BitVec 16
deriving DecidableEq, Repr

/-- A reading of the digest during reset: the SEL straps as sampled, and errors that the reads of the digest find. -/
structure DigestRead where
  sel : BitVec 3
  ups : List Upset
deriving DecidableEq, Repr

/-- The end of a plane's power-up: the cycle of the bar at which the plane is powered, and the raw codes of its four optically black rows, row
by row. -/
structure PowerUpEnd where
  cycle : Nat
  black : List Code
deriving DecidableEq, Repr

/-- What a slot boundary meets: the PRIV_N pad, errors that the Metronome's reads of the schedule find, and at slot 447 those that the reads of the
bar start behind it will find (log entry 74). -/
structure BoundaryRead where
  pad : PadLevel
  ups : List Upset
  bar : List Upset
deriving DecidableEq, Repr

/-- A dispatch: of the head of Q1 (`soli`), else of Q0, and errors that the reads of its entry find. -/
structure QueueRead where
  soli : Bool
  ups : List Upset
deriving DecidableEq, Repr

/-- The samples of the two listen chips of a scan, and errors that the reads of the touch factory map and the touch section find. -/
structure ListenRead where
  chips : List (List Int)
  ups : List Upset
deriving DecidableEq, Repr

/-- When a HEARTBEAT came: whether it was sent at a slot 64q with q ≥ 1, and the 48 MHz cycle of its first transition, in the receiver's count. -/
structure HeartbeatTime where
  scheduled : Bool
  arrival : Int
deriving DecidableEq, Repr

/-- What a plane delivers to DARK_CAL: the black rows at the end of its power-up, and for each of the 16 bars the raw codes row by row and those
of its black rows. -/
structure DarkFrames where
  seed : List Code
  bars : List (List (List Code) × List Code)
deriving DecidableEq, Repr

/-- A section context of the Soli engine (R189). -/
abbrev Ctx := Fin 32

/-- A general register number of a Soli thread. -/
abbrev Reg := BitVec 5

/-- The commands of the block, one per row of spec/opcode_table.json. -/
inductive Instr where
  -- power, reset and supplies
  | aonPowerOn
  | aonLoss
  /-- `sel`: the SEL straps as sampled when step 2 starts, and the reading of the digest. -/
  | supervisionStart (sel : DigestRead)
  /-- The two measurements of this pair, pad by pad in the pads' order RZ_TEMPO, RZ_RUBATO, RZ_LEAK, RZ_SENSE, RZ_SLEW, RZ_INJECT. -/
  | resetPairReading (first second : Vector Measure 6)
  | selChangeDigestRead (sel : DigestRead)
  | vioValid
  | vioInvalid
  | rstNLow
  | vinBelowVrst
  | vcoreCollapse
  /-- `straps`: the levels latched; `vpp`: VPP is above 6.5 V (R61). -/
  | latchMoment (straps : Straps) (vpp : Bool)
  /-- `wake`: the level of the WAKE pin, for the floor of R22; `ups`: errors that the reads find. -/
  | digestVerification (wake : Bool) (ups : List Upset)
  | imagerStepDone (p : Plane) (black : PowerUpEnd)
  | limiterTick
  -- the Metronome and the Conductor
  /-- The raw codes of the source rows that this slot may convert, and what the boundary reads. -/
  | slotBoundary (adcW : Vector Code 640) (adcH : Vector Code 320) (priv : BoundaryRead)
  | abandonAndScrub
  | barStart
  | exposureStart (p : Plane)
  /-- The junction temperature of the sample, in whole degrees Celsius. -/
  | thermalSample (t : Int)
  | rubatoSenseInjectSample (rubato sense inject : Measure)
  | leakSample (m : Measure)
  /-- `wake`: the level of the WAKE pin in this slot; `ups`: errors that the Conductor's reads find. -/
  | conductorSlot444 (wake : Bool) (ups : List Upset)
  -- Tacet
  /-- `elapsed`: the wait of Table 04-6 step 4 has lasted 2 bars. -/
  | tacetEventPortDrain (elapsed : Bool)
  | tacetEntryEnd
  | wakeHighInTacet
  | aonWakeTimer
  -- supervision
  | vwarnTrip
  | fermataEntry
  | vcoreUndervoltage
  | fermataEnd
  -- LED interlock, VPIX and PRIV_N
  | ledInterlockMet
  /-- Which of the two conditions fails: the sink current, the forward voltage. -/
  | ledInterlockOpen (current forward : Bool)
  | vpixDischarged
  | privNFall
  | planeRestart
  -- REF_CLK
  /-- `cycles`: the length of the period that this edge ends, in 48 MHz cycles. -/
  | refClkEdge (cycles : Nat)
  | refClkTimeout
  /-- `cycles`: the 48 MHz cycles counted over the run of 32 periods. -/
  | trimRunEnd (cycles : Nat)
  -- the leakage gate and the event port
  /-- `edges`: the AON clock edges since the accumulator last moved. An edge at which an entry is released ends the command. -/
  | tokenRefill (edges : Nat)
  | recordRelease
  /-- `edges`: the rising edges of EV_SCK while EV_CS_N is low. -/
  | eventPortTransaction (edges : Nat)
  -- schedule entries
  | post (cue : BitVec 7) (inc : BitVec 9) (ups : List Upset)
  | launchT (index : BitVec 16)
  | launchS (index : BitVec 16)
  /-- `chg`: the entry names CHG_DET, else WAKE; `level`: that pin's level. -/
  | sample (chg : Bool) (level : Bool)
  | mark (begins : Bool)
  -- operations
  | queueDispatch (soli : QueueRead)
  | tuttiDescriptorComplete (ups : List Upset)
  /-- `k`: the position of the kernel among the Soli operations in flight. -/
  | kernelComplete (k : Nat) (ups : List Upset)
  | cropJobComplete (ups : List Upset)
  | sieveJobComplete (ups : List Upset)
  | attentionJobComplete (ups : List Upset)
  -- Soli instructions
  | endThreads (c : Ctx) (g : Guard) (ups : List Upset)
  | add (c : Ctx) (g : Guard) (d a b : Reg)
  | sub (c : Ctx) (g : Guard) (d a b : Reg)
  | mul (c : Ctx) (g : Guard) (d a b : Reg)
  | mulh (c : Ctx) (g : Guard) (d a b : Reg)
  | mac (c : Ctx) (g : Guard) (d a b : Reg)
  | dot4s (c : Ctx) (g : Guard) (d a b : Reg)
  | dot4us (c : Ctx) (g : Guard) (d a b : Reg)
  | and (c : Ctx) (g : Guard) (d a b : Reg)
  | or (c : Ctx) (g : Guard) (d a b : Reg)
  | xor (c : Ctx) (g : Guard) (d a b : Reg)
  | shl (c : Ctx) (g : Guard) (d a b : Reg)
  | shr (c : Ctx) (g : Guard) (d a b : Reg)
  | sra (c : Ctx) (g : Guard) (d a b : Reg)
  | min (c : Ctx) (g : Guard) (d a b : Reg)
  | max (c : Ctx) (g : Guard) (d a b : Reg)
  | minu (c : Ctx) (g : Guard) (d a b : Reg)
  | maxu (c : Ctx) (g : Guard) (d a b : Reg)
  | abs (c : Ctx) (g : Guard) (d a : Reg)
  | lzc (c : Ctx) (g : Guard) (d a : Reg)
  | sel (c : Ctx) (g : Guard) (d a b : Reg) (p : BitVec 3)
  | shfl (c : Ctx) (g : Guard) (d a b : Reg)
  | rshr (c : Ctx) (g : Guard) (d a b : Reg)
  | rsc (c : Ctx) (g : Guard) (d a b : Reg)
  | clamp (c : Ctx) (g : Guard) (d a b : Reg)
  | bra (c : Ctx) (g : Guard) (off : BitVec 22)
  | rpush (c : Ctx) (off : BitVec 22)
  | rsync (c : Ctx)
  | park (c : Ctx) (g : Guard)
  | ldc (c : Ctx) (g : Guard) (d a : Reg) (off : BitVec 10) (lc : BitVec 2) (ups : List Upset)
  | addi (c : Ctx) (g : Guard) (d a : Reg) (imm : BitVec 12)
  | andi (c : Ctx) (g : Guard) (d a : Reg) (imm : BitVec 12)
  | ori (c : Ctx) (g : Guard) (d a : Reg) (imm : BitVec 12)
  | xori (c : Ctx) (g : Guard) (d a : Reg) (imm : BitVec 12)
  | shli (c : Ctx) (g : Guard) (d a : Reg) (sh : BitVec 5)
  | shri (c : Ctx) (g : Guard) (d a : Reg) (sh : BitVec 5)
  | srai (c : Ctx) (g : Guard) (d a : Reg) (sh : BitVec 5)
  | lui (c : Ctx) (g : Guard) (d : Reg) (imm : BitVec 16)
  | sreg (c : Ctx) (g : Guard) (d : Reg) (imm : BitVec 12)
  | cmp (c : Ctx) (g : Guard) (pd : BitVec 3) (cond : Cond) (a b : Reg)
  | cmpi (c : Ctx) (g : Guard) (pd : BitVec 3) (cond : Cond) (a : Reg) (imm : BitVec 11)
  | plog (c : Ctx) (g : Guard) (pd : BitVec 3) (op : Lop) (pa pb : BitVec 3)
  /-- `all`: MODE 1, the AND; else MODE 0, the OR. -/
  | vote (c : Ctx) (g : Guard) (pd : BitVec 3) (all : Bool) (pa : BitVec 3)
  | ldw (c : Ctx) (g : Guard) (d a : Reg) (off : BitVec 10) (lc : BitVec 2) (ups : List Upset)
  | ldh (c : Ctx) (g : Guard) (d a : Reg) (off : BitVec 10) (lc : BitVec 2) (ups : List Upset)
  | ldhu (c : Ctx) (g : Guard) (d a : Reg) (off : BitVec 10) (lc : BitVec 2) (ups : List Upset)
  | ldb (c : Ctx) (g : Guard) (d a : Reg) (off : BitVec 10) (lc : BitVec 2) (ups : List Upset)
  | ldbu (c : Ctx) (g : Guard) (d a : Reg) (off : BitVec 10) (lc : BitVec 2) (ups : List Upset)
  /-- `k`: which outstanding load of the section; `lanes`: the lanes whose values are written now. -/
  | loadReturn (c : Ctx) (k : Nat) (lanes : BitVec 16)
  | stw (c : Ctx) (g : Guard) (d a : Reg) (off : BitVec 10) (ups : List Upset)
  | sth (c : Ctx) (g : Guard) (d a : Reg) (off : BitVec 10) (ups : List Upset)
  | stb (c : Ctx) (g : Guard) (d a : Reg) (off : BitVec 10) (ups : List Upset)
  | waitlc (c : Ctx) (g : Guard) (count : BitVec 6) (lc : BitVec 2)
  | exp (c : Ctx) (g : Guard) (d a : Reg)
  | rcp (c : Ctx) (g : Guard) (d a : Reg)
  | rsq (c : Ctx) (g : Guard) (d a : Reg)
  | cwait (c : Ctx) (g : Guard) (cue : BitVec 7) (a : Reg)
  | cpost (c : Ctx) (g : Guard) (cue : BitVec 7) (inc : BitVec 9) (ups : List Upset)
  -- touch
  /-- `chg`: CHG_DET at the start of the scan. -/
  | scanStart (chg : Bool)
  /-- `chips`: for each drive chip the 16 samples m_j(c); `noise`: for each listen chip its 16 samples. -/
  | scanComplete (chips : List (List Int)) (noise : ListenRead)
  -- haptics
  /-- `vin`: VIN in mV. -/
  | effectStart (vin : Nat)
  /-- `vin`: VIN in mV; `emf`: the back-EMF is positive. -/
  | halfCycleEnd (vin : Nat) (emf : Bool)
  /-- `gap`: seconds since the crossing detected before. -/
  | backEmfZeroCrossing (gap : Rat)
  /-- `quiet`: the sense window read below 20 mV; else 6 ms have passed. -/
  | brakeEnd (quiet : Bool)
  -- Duet
  | heartbeatSend
  | frameTransmit
  /-- `arrival`: the 48 MHz cycle of the frame's first transition, in the receiver's count. -/
  | bar (f : FrameBytes) (arrival : Int)
  | heartbeat (f : FrameBytes) (scheduled : HeartbeatTime)
  | verdict (f : FrameBytes)
  | recA (f : FrameBytes)
  | recB (f : FrameBytes)
  | wake (f : FrameBytes)
  | swapReq (f : FrameBytes)
  | swapGo (f : FrameBytes)
  | notice (f : FrameBytes)
  | invalidFrame (e : FrameError)
  | retransmitTimeout (seq : BitVec 4)
  | partnerSilenceTimeout
  | swapGoWithdraw
  | acquisitionHoldTimeout
  -- Flailo
  /-- `vpp`: VPP in mV; `fails`: the words (by offset) that fail their read-back. -/
  | load (h : FlailoHead) (vpp : Nat) (fails : List Nat)
  | verify (h : FlailoHead)
  /-- `led`: the interlock of R32 is met; `frames`: what the plane delivers; `resp`: each column's response to the test charge. -/
  | darkCal (h : FlailoHead) (led : Bool) (frames : DarkFrames) (resp : List Nat)
  /-- `scans`: for each of the 64 scans the 128 node measurements in counts. -/
  | touchCal (h : FlailoHead) (scans : List (List Nat))
  | calWrite (h : FlailoHead) (vpp : Nat) (fails : List Nat)
  | read (h : FlailoHead)
  | seal (h : FlailoHead)
  | info (h : FlailoHead)
  -- later rows of the table
  | privNRise
  | acquisitionHoldSample (priv : PadLevel) (t : Int)
  | coreBaseStepComplete
  | flailoUnknownOpcode (op : Byte) (h : FlailoHead)
deriving DecidableEq, Repr

end Sys2Proof
end

