-- ==== Sys2Proof/Machine/State.lean ====
section
/-!
DEFINITION. The state of the module: plain data, every piece of state that the manual names, grouped by the block that
holds it, and `State.reset`, the module before any supply has come up (log entry 2).
-/
namespace Sys2Proof.Machine

/-- Why a step stops. No row of this hardware stops with a fault: every access that the manual forbids is refused inside
the machine and reads zero (R139), so the type has no constructor. -/
inductive Fault where
deriving DecidableEq, Repr

/-- Why a command has no meaning. -/
inductive Refusal where
  /-- Raised by `exec`'s arm of a command that is not modelled; safe: it stops. -/
  | notModelled (mnemonic : String)
  /-- Raised by a meaning whose operand cannot be what the hardware delivers (`Instr.wf`); safe: it stops. -/
  | illFormed (mnemonic : String)
deriving DecidableEq, Repr

/-! ### Power states and phases -/

/-- The power states, in the order of R22. -/
inductive PState where
  | tacet | pianissimo | mezzo | forte
deriving DecidableEq, Repr

/-- Where the module stands in its power sequences (R56, R85 to R90, R61). -/
inductive Phase where
  /-- The AON domain has no supply. -/
  | off
  /-- RST_N or VIO has begun a reset while the link was up: step 3 of Table 04-6 runs, all other steps are done (R90, R303). -/
  | resetEntry
  /-- Reset, until the latch moment. -/
  | reset
  /-- Power-up step 5 verifies the digest; `exit`: on leaving Tacet (R87), else after a reset. -/
  | verifying (exit : Bool)
  /-- Bars run. -/
  | running
  /-- Tacet entry; the step of Table 04-6 that is running, 6 down to 2. -/
  | tacetEntry (step : Nat)
  | tacet
  /-- Leaving Tacet: power-up step 2 runs (R87). -/
  | tacetExit
  /-- Flailo mode (R61, R324). -/
  | flailo
deriving DecidableEq, Repr

/-! ### The AON domain -/

/-- The unclean-stop flag with what it carries (R89 to R91): step code and DETAIL of DET 19 of the latest stop, whether one was injected,
and, as R330 counts trips, bar and slot of the first stop and their number. -/
structure Unclean where
  step : Nat
  detail : Nat
  injected : Bool
  bar : BitVec 16
  slot : Nat
  count : Nat
deriving DecidableEq, Repr

/-- What the always-on domain holds. -/
structure Aon where
  /-- VAON is up (R85 step 1). -/
  on : Bool
  /-- The leakage gate's token count, at most 8 (R39). -/
  tokens : Nat
  /-- The gate's accumulator (R274). -/
  acc : Nat
  /-- The effective LEAK code; none before the first latch moment (R39, R46). -/
  leak : Option RzCode
  /-- The non-idle sequence counter (R277). -/
  seq : BitVec 8
  /-- The idle count (R275). -/
  idle : BitVec 8
  /-- The oscillator trim word in steps of 20 ppm; 0 is mid-range (R113, R114). -/
  trim : Int
  unclean : Option Unclean
  /-- Records dropped or discarded since the last state-change record (R88, R276, Table 14-12). -/
  drops : Nat
  /-- A record was dropped since the previous enqueue (Table 14-3 DROP). -/
  dropFlag : Bool
  /-- The injection lock (R339). -/
  lock : Option RzCode
  /-- The bar counter (R103). -/
  bar : BitVec 16
  /-- Warnings per bar, the current bar first, at most 64 bars (R98). -/
  warnings : List Nat
  /-- The warning cap (R98). -/
  warnCap : Bool
  /-- A warning has brought the count above 8: the cap becomes active at the next evaluation (R98). -/
  capNext : Bool
  /-- Consecutive clean bars while the cap is active (R98). -/
  cleanBars : Nat
  /-- The wake timer in AON edges; none when no timer runs (R84). -/
  wakeTimer : Option Nat
deriving DecidableEq, Repr

/-! ### Supplies, straps and resistor codes -/

/-- The supply monitors and rails (Tables 04-1, 04-3, 04-5). -/
structure Supply where
  /-- VIO is treated as valid (R54). -/
  vio : Bool
  /-- VIN has risen above VRST for 1 ms (R56). -/
  vrst : Bool
  /-- VIN has not yet stayed above VWARN's release level for 2 beats since the AON domain powered on or VWARN last tripped (R96, R342). -/
  low : Bool
  /-- RST_N is recognised low (R57). -/
  rstLow : Bool
  /-- The core base is powered: VCORE, the 48 MHz oscillator, the thermal sensor (R85 step 2). -/
  core : Bool
  /-- The VCORE collapse monitor is armed (R90). -/
  armed : Bool
  vana : Bool
  /-- All pads are isolated (R89). -/
  isolated : Bool
  /-- VCORE's target in steps of 12.5 mV above 0.500 V (R80). -/
  vcore : Nat
deriving DecidableEq, Repr

/-- The reading of one RZ pad at reset (R67). -/
structure PadRead where
  /-- The agreed code, once a pair agrees. -/
  code : Option RzCode
  /-- The pad took its default. -/
  default : Bool
deriving DecidableEq, Repr

/-- One RZ pad that is measured in every bar: its effective code and what the two-bar rule holds (R70). -/
structure BarCode where
  eff : RzCode
  /-- The candidate of the preceding bar's measurement. -/
  cand : Option RzCode
  /-- The confirmed code, effective at the next slot 0. -/
  conf : Option RzCode
deriving DecidableEq, Repr

/-- What a reset holds until the latch moment, and what it leaves (R56 to R67). -/
structure Boot where
  straps : Straps
  /-- SEL as last sampled (R58). -/
  selSampled : BitVec 3
  /-- Power-up step 2 of this reset has begun. -/
  started : Bool
  /-- The pairs of measurements already ended, 0 to 8 (R67). -/
  pairs : Nat
  /-- The six pads in the order TEMPO, RUBATO, LEAK, SENSE, SLEW, INJECT. -/
  pads : Vector PadRead 6
  /-- ENTRY of the CAUSE 0 record (Table 14-12). -/
  entry : Nat
  /-- The digest whose fragments records carry (R49, R86, R279). -/
  digest : Vector Byte 32
  /-- A read of that digest during this reset has found an uncorrectable error (R333). -/
  broken : Bool
  /-- The latched TEMPO and SLEW codes (R68). -/
  tempo : RzCode
  slew : RzCode
deriving DecidableEq, Repr

/-- The four codes measured in every bar (R69). -/
structure Codes where
  rubato : BarCode
  sense : BarCode
  inject : BarCode
  leak : BarCode
deriving DecidableEq, Repr

/-! ### The Metronome -/

/-- The fixed actions of a slot that are still to come (Table 05-3 and the restart attempts of R335). -/
inductive Due where
  | planeRestart | thermal | heartbeat | withdraw | resistors | leak | conductor
deriving DecidableEq, Repr

/-- One schedule entry (Table 05-4). -/
structure Entry where
  slot : Nat
  kind : Nat
  arg : BitVec 16
deriving DecidableEq, Repr

/-- The timing generator (R101 to R119). -/
structure Metro where
  /-- Slots are counted. -/
  on : Bool
  slot : Nat
  /-- Slot 0 has begun and its boundary actions are still to come. -/
  slot0 : Bool
  due : List Due
  /-- The schedule entries of this slot still to be issued (R109). -/
  issue : List Entry
  /-- The current bar's length in 48 MHz cycles (R102). -/
  len : Nat
  /-- The cycle at which the current bar began, counted since the oscillator started. -/
  start : Int
  /-- The current bar runs its state's schedule (R110). -/
  sched : Bool
  /-- A MARK run is open (R111). -/
  run : Bool
  /-- The current slot is over-scaled (R111). -/
  overScaled : Bool
  /-- The run has been ended for the rest of the bar (R111, R154). -/
  noRun : Bool
  /-- The acquisition hold of R117. -/
  hold : Bool
  /-- The samples made in that hold, one per slot length. -/
  waited : Nat
  /-- The follower's next bar length, once R116's loop has set it. -/
  next : Option Nat
  /-- The leader's x of R116. -/
  x : Int
  /-- t_L of the previous BAR frame (R116). -/
  tlPrev : Option Int
  /-- The r that this module sends (R116). -/
  r : Int
  /-- The latest r received (R116). -/
  rRecv : Int
  /-- The follower is aligned (R116). -/
  aligned : Bool
  /-- The model's own: errors that the reads of the coming bar start will find, an operand that slot 447's boundary brings (log entry 74). -/
  barErrors : List Upset
deriving DecidableEq, Repr

/-- The REF_CLK checker (R113). -/
structure RefClk where
  /-- A first edge has been seen since the oscillator started or REF_CLK became invalid. -/
  seen : Bool
  /-- Consecutive good periods, up to 32. -/
  good : Nat
  valid : Bool
  /-- Periods in the current run of 32. -/
  run : Nat
  /-- The 48 MHz cycles of those periods. -/
  sum : Nat
  /-- Runs ended since REF_CLK became valid, saturating at 24. -/
  runs : Nat
deriving DecidableEq, Repr

/-! ### Planes, VPIX and PRIV_N -/

/-- An exposure: eighth-slots and gain code (Table 06-2). -/
structure Exposure where
  exp : Nat
  gain : Nat
deriving DecidableEq, Repr

/-- How far a plane's power-up has come (Table 04-5 step 6). -/
inductive PlanePower where
  | off
  /-- Its sequence waits for the interlock and the VPIX LDO. -/
  | starting
  | on
deriving DecidableEq, Repr

/-- One image plane with its stave (R120 to R132). -/
structure PlaneState where
  power : PlanePower
  /-- The plane reads rows in this bar (R104, R126). -/
  reading : Bool
  /-- n of the n by n binning of this bar: 1, 2 or 4. -/
  bin : Nat
  /-- B_eff in 1/16 LSB (R128). -/
  black : Nat
  /-- B_eff from the next slot 0. -/
  blackNext : Option Nat
  /-- The sum of the black-row codes converted in this bar. -/
  blackSum : Nat
  /-- The column accumulator: the sums of one binned row (R127). -/
  acc : List Nat
  /-- The stave: a cleared position holds none, a valid one the row's entries (R129). -/
  stave : Vector (Option (List Nat)) 16
  /-- The stave position that the row in the column accumulator takes at the end of this slot (R104). -/
  coming : Option Nat
  /-- The storage nodes hold a transferred exposure that has not been wholly converted (R134). -/
  stored : Bool
  /-- The exposure of the rows read in this bar. -/
  used : Option Exposure
  /-- The exposure transferred at the next slot 0, as a slot 444 has laid it down (R125). -/
  next : Option Exposure
  /-- The exposure transferred at the slot 0 after the next (R125). -/
  after : Option Exposure
  /-- The cycle of the current bar at which the pixels began to integrate (R122). -/
  expStart : Option Nat
deriving DecidableEq, Repr

/-- VPIX, its series switch and the camera LED (R30 to R35, R135, R345). -/
structure Vpix where
  /-- The CAM_LED sink is on. -/
  sink : Bool
  /-- The VPIX LDO is enabled; its discharge switch is closed otherwise (R362). -/
  ldo : Bool
  /-- VPIX is at or above 0.2 V. -/
  above : Bool
  /-- The series switch on the pixel die is closed; the clamp is its antiphase (R135). -/
  closed : Bool
deriving DecidableEq, Repr

/-- The logic die's PRIV_N path and what holds the planes off (R37, R38, R334, R335). -/
structure Priv where
  /-- The sampled state reads asserted. -/
  asserted : Bool
  /-- Consecutive samples that read released, saturating at 16. -/
  released : Nat
  /-- Consecutive samples at which the two paths disagree, saturating at 3. -/
  disagree : Nat
  /-- Consecutive samples at which they agree, saturating at 16 (R335). -/
  agree : Nat
  /-- Readout stops at the next slot boundary. -/
  stop : Bool
  /-- The VPIX LDO is turned off at the next slot boundary (R37, R100). -/
  ldoOff : Bool
  /-- What holds the planes off: PRIV_N, thermal shutdown, the interlock, the disagreement. -/
  byPriv : Bool
  byThermal : Bool
  byLed : Bool
  byPath : Bool
  /-- Planes were stopped and the next readout is a resumption, so its bar is exact (R230). -/
  resumed : Bool
  /-- This bar began a restart of the planes: it reads no rows and yields no fresh verdict (R126). -/
  restart : Bool
deriving DecidableEq, Repr

/-- The thermal sample counts and states (Table 04-3, R360). -/
structure Thermal where
  hot : Nat
  cool90 : Nat
  cool100 : Nat
  throttle : Bool
  shutdown : Bool
  /-- The latest sample. -/
  last : Int
deriving DecidableEq, Repr

/-! ### Detectors -/

/-- What a detector keeps between records (R330). -/
structure Detector where
  pending : Bool
  count : Nat
  injected : Bool
  bar : BitVec 16
  slot : Nat
  detail : BitVec 32
  /-- Bars since the last record of this DET, for the windowed detectors (R331). -/
  since : Option Nat
deriving DecidableEq, Repr

/-- Injection (R337 to R340). -/
structure Injection where
  /-- The code that acts: the effective code while TEST is latched and no lock holds it; 0 for none. -/
  code : RzCode
  /-- The effective code is non-zero and TEST is latched: records carry INJ (R337). -/
  active : Bool
  /-- The code has become effective at this slot 0, and its trip is still to be forced (R338). -/
  newly : Bool
deriving DecidableEq, Repr

/-! ### Load-slew limiter and block power -/

/-- The actions of a ramp (R94). -/
inductive Action where
  | vcore
  | bank (n : Nat)
  | held
  /-- One of eight Tutti frequency steps. -/
  | tutti (step : Nat)
  | cluster (n : Nat)
  | soli (step : Nat)
  | plane (p : Plane)
deriving DecidableEq, Repr

/-- The limiter (R94); currents in uA. -/
structure Limiter where
  /-- A ramp runs. -/
  on : Bool
  /-- Slot 444 has chosen a state towards which no ramp has been started or planned yet: slot 445, or the end of a fermata, does it
  (R92, R93, R96). -/
  armed : Bool
  up : Bool
  iOld : Int
  iNew : Int
  allow : Int
  k : Nat
  acts : List Action
  /-- The plane whose power-up, the last action, has not settled yet. -/
  busy : Option Plane
  /-- A bar has begun while that power-up waited for the LED interlock. -/
  tried : Bool
  /-- The planes that the old state declares or that the ramp has powered, less those it has shut down (R94). -/
  planes : List Plane
  /-- A fermata holds the ramp (R96). -/
  paused : Bool
  /-- The state the ramp leads to. -/
  dst : PState
deriving DecidableEq, Repr

/-- What the gated domains have at this moment. -/
structure Blocks where
  /-- Tensor SRAM banks powered. -/
  banks : BitVec 16
  /-- The held store is at full power. -/
  held : Bool
  /-- Tutti clock in units of MHz / 8. -/
  tclk : Nat
  /-- Soli clusters powered. -/
  clusters : BitVec 8
  /-- Soli clock in units of MHz / 8. -/
  sclk : Nat
deriving DecidableEq, Repr

/-! ### The shared space and the engines -/

/-- Tensor SRAM and held store (R140, R359): the bytes other than 0 of the written words in rising order, the words
whose written flag is set, and the words that hold an uncorrectable error. -/
structure Ram where
  cells : List Host.Cell
  /-- Word numbers (address / 8) in rising order. -/
  flags : List Nat
  bad : List Nat
deriving DecidableEq, Repr

/-- Repertoire ROM, score OTP and calibration OTP, with the seal. -/
structure Nvm where
  /-- The bytes of the repertoire ROM that the manual leaves open; `romByte` adds those that it gives. -/
  rom : List Host.Cell
  /-- The programmed bytes other than 0 of score OTP and calibration OTP, by shared-space address. -/
  otp : List Host.Cell
  /-- The words that carry a programmed mark (R325), in rising order. -/
  marks : List Nat
  sealed : Bool
  /-- The words in which the reads of the running command find an uncorrectable error (R333); none between commands. -/
  failing : List Nat
deriving DecidableEq, Repr

/-- One lane of a section (R189). -/
structure Lane where
  regs : Vector Word 32
  preds : Vector Bool 8
deriving DecidableEq, Repr

/-- An outstanding load (R200): its destination, its counter, the value of each lane and the lanes not yet written. -/
structure PendingLoad where
  dest : Reg
  lc : BitVec 2
  values : Vector Word 16
  left : BitVec 16
deriving DecidableEq, Repr

/-- A section in its context (R191, R199, R200). -/
structure Section where
  /-- The kernel it belongs to. -/
  op : Nat
  /-- Its section number (R194). -/
  sec : Nat
  lanes : Vector Lane 16
  active : BitVec 16
  live : BitVec 16
  /-- The reconvergence stack, top first: mask and word index. -/
  stack : List (BitVec 16 × Int)
  /-- Word index from CODE_OFF. -/
  pc : Int
  lcs : Vector Nat 4
  loads : List PendingLoad
  ended : Bool
deriving DecidableEq, Repr

/-- A Q0 or Q1 entry (Table 07-6); every listed entry is VALID. -/
structure QEntry where
  index : Nat
  slot : Nat
deriving DecidableEq, Repr

/-- A Soli operation in flight: a kernel with its contexts, or a helper job (R194, R206). -/
structure SoliOp where
  id : Nat
  index : Nat
  /-- KIND of the launch record: 0 kernel, 1 crop, 2 sieve, 3 attention. -/
  kind : Nat
  ctxs : List Ctx
deriving DecidableEq, Repr

/-- Queues, cues, context words, operations in flight and counters (R136 to R155, R188, R233, R241). -/
structure Exec where
  /-- Bar-context word (Table 07-3). -/
  ctx : BitVec 32
  /-- Pin-sample word (Table 07-4). -/
  pins : BitVec 32
  cues : Vector (BitVec 16) 128
  q0 : List QEntry
  q1 : List QEntry
  /-- Tutti descriptors in flight, in dispatch order. -/
  tutti : List Nat
  soli : List SoliOp
  /-- The number that the next kernel gets. -/
  opId : Nat
  sections : Vector (Option Section) 32
  /-- An overrun or an uncorrectable error has stopped this bar's entries (R154, R333). -/
  stopped : Bool
  /-- The abandonment and the scrub are still to come, at the next slot boundary. -/
  abandon : Bool
  /-- Output and clipped-output counters of the 64 layers (R188). -/
  clips : Vector (Nat × Nat) 64
  /-- Block columns skipped (R241). -/
  skipped : Nat
  /-- Positions rested by age and by weakness. -/
  restAge : Nat
  restWeak : Nat
  /-- Marked slots begun. -/
  marked : Nat
  /-- The tile sums D of R233, row by row. -/
  tiles : List Nat
  /-- r of R235. -/
  r : Nat
deriving DecidableEq, Repr

/-! ### Touch and haptics -/

/-- One touch node (R247 to R250). -/
structure Node where
  /-- Baseline in 2^-16 count. -/
  base : Int
  /-- The latest measurement. -/
  meas : Int
  suspect : Bool
  /-- Consecutive scans as an anti-touch, saturating at 8. -/
  anti : Nat
  /-- The steady run of a suspect node: its first measurement and its length. -/
  runM0 : Int
  runLen : Nat
  touched : Bool
deriving DecidableEq, Repr

/-- The gesture recogniser's memory (R254). -/
structure Gesture where
  /-- The running episode: length, first POS, last POS, excursion, hold already reported. -/
  len : Nat
  first : Int
  last : Int
  exc : Int
  held : Bool
  /-- Scans since the last tap episode ended, while a tap waits. -/
  tapGap : Option Nat
  /-- The running episode began within GAP of that tap. -/
  second : Bool
deriving DecidableEq, Repr

/-- The touch front end (R242 to R255). -/
structure Touch where
  on : Bool
  nodes : Vector Node 128
  /-- The next completed scan is the first after a start (R250). -/
  fresh : Bool
  /-- A scan is in progress. -/
  scanning : Bool
  /-- That scan read CHG_DET high at its start. -/
  chg : Bool
  /-- That scan runs in noise mode. -/
  scanNoise : Bool
  /-- The SENSE code of that scan (R72). -/
  scanSense : RzCode
  /-- Noise mode (R252). -/
  noise : Bool
  /-- Whether each of the last completed scans was noisy, newest first, at most 8. -/
  noisy : List Bool
  /-- The run of quiet scans, saturating at 64. -/
  quiet : Nat
  /-- Noise figure of the latest noisy scan (Table 17-2). -/
  lastNoise : Nat
  gesture : Gesture
  /-- Touch summary word (Table 13-3). -/
  summary : BitVec 32
  /-- A scan has completed since TOUCH_N was last updated. -/
  done : Bool
deriving DecidableEq, Repr

/-- Where the haptic driver stands (R260, R261). -/
inductive Haptic where
  | idle
  /-- A trigger has come at slot 444 and waits for slot 445. -/
  | armed (e : Nat)
  /-- Overdrive with this many half-cycles begun. -/
  | overdrive (e : Nat) (n : Nat)
  | sustain (e : Nat) (n : Nat)
  | brake (e : Nat)
  /-- A brake has ended; the pending effect waits for a zero crossing or 2 ms. -/
  | waiting
deriving DecidableEq, Repr

/-- The drive of the H-bridge: off, or driven at a duty in 1/256 (R258, Table 18-5); with its polarity in a half-cycle, where `window` says that
the half-cycle has a sense window, in which the bridge is released (R259), or in antiphase to the back-EMF in a brake that has begun within a
half-cycle (R262). -/
inductive Bridge where
  | off
  | drive (positive : Bool) (duty : Nat) (window : Bool)
  | antiphase (duty : Nat)
deriving DecidableEq, Repr

/-- The Accent driver (R256 to R262). -/
structure Accent where
  state : Haptic
  pending : Option Nat
  /-- The playing effect enters its brake at its next zero crossing (R261). -/
  cut : Bool
  bridge : Bridge
  /-- The length of the running half-cycle in seconds. -/
  half : Rat
  /-- The length of the next half-cycle (R259). -/
  next : Rat
  /-- VIN in mV as last given (R258). -/
  vin : Nat
deriving DecidableEq, Repr

/-! ### Event ring and Duet ring -/

abbrev Record := Vector Byte 32

/-- The states of a Q2 entry (R274). -/
inductive RingSt where
  | enqueued | released | partly
deriving DecidableEq, Repr

/-- A Q2 entry: the record as fixed at enqueue, its state and the order of its enqueue. -/
structure RingEntry where
  data : Record
  st : RingSt
  stamp : Nat
deriving DecidableEq, Repr

/-- The event port (R263 to R277). -/
structure Port where
  /-- The port is enabled: from power-up step 4 to the end of Tacet entry step 4. -/
  on : Bool
  ring : List RingEntry
  /-- Counts the steps that enqueue; entries of one step share it. -/
  stamp : Nat
  /-- What the latest transaction served: the record selected and the edges clocked. -/
  served : Option (Record × Nat)
  /-- An AON edge has found a token and a waiting entry: one entry is released at that edge (R274). -/
  release : Bool
deriving DecidableEq, Repr

/-- A message frame waiting in Q3: type and body are laid down, the header at first transmission (R295). -/
structure Msg where
  type : BitVec 4
  body : Vector Byte 12
  released : Bool
  stamp : Nat
deriving DecidableEq, Repr

/-- A message frame transmitted and not acknowledged (R295). -/
structure Flight where
  bytes : FrameBytes
  /-- Retransmissions made. -/
  tries : Nat
  /-- A retransmission waits for the line. -/
  due : Bool
deriving DecidableEq, Repr

inductive LinkState where
  | off | seeking | up
deriving DecidableEq, Repr

/-- The partner's verdict (Table 15-4). -/
structure PartnerVerdict where
  bar : BitVec 16
  present : Bool
  gest : BitVec 3
  summary : BitVec 20
  elems : Vector Byte 6
deriving DecidableEq, Repr

/-- The Duet link (R282 to R309). -/
structure Duet where
  link : LinkState
  epoch : BitVec 4
  /-- DIGIDX of the next link frame. -/
  digIdx : BitVec 3
  /-- The DIGIDX values covered by matching frames while seeking. -/
  seen : BitVec 8
  ready : Bool
  /-- A valid frame with READY = 1 has been received. -/
  partnerReady : Bool
  q3 : List Msg
  txSeq : BitVec 4
  flight : List Flight
  /-- Sequence numbers to acknowledge, oldest first. -/
  acks : List (BitVec 4)
  /-- The last message frames executed, newest first, at most 4 (R296). -/
  memory : List (BitVec 4)
  /-- The half records of REC_A frames, newest first, at most 4: SEQ, TYPE, FLAGS and payload bytes 8 to 17. -/
  halves : List (BitVec 4 × BitVec 4 × Byte × Vector Byte 10)
  /-- The partner's records received since the last slot 444, oldest first: TYPE, FLAGS and payload (R272). -/
  relayed : List (BitVec 4 × Byte × List Byte)
  /-- The partner's fresh verdicts, newest first, until their bar has been fused or has passed (R300). -/
  partner : List PartnerVerdict
  /-- The partner's divisor index in its latest BAR or HEARTBEAT, and the state of its latest valid BAR (R298). -/
  pDivx : BitVec 4
  pState : Option PState
  /-- The windows of received WAKE frames, newest first, until they have passed: WBAR and HOLD (R302). -/
  wakes : List (BitVec 16 × BitVec 8)
  /-- Slots since the last valid frame (R297). -/
  quiet : Nat
  /-- A NOTICE has been received and chooses Tacet at the next slot 444 (R303). -/
  noticed : Bool
  /-- A swap request is held (R304). -/
  held : Bool
  /-- SWAP_GO of the current epoch has been sent: XBAR (R305). -/
  goSent : Option (BitVec 16)
  /-- Committed: XBAR (R306). -/
  commit : Option (BitVec 16)
  /-- The current bar is the handover bar (R305, R306). -/
  handover : Bool
  /-- A CAUSE 5 record is planned (R290, R309). -/
  change : Bool
  /-- The latest frame put on DU_TX. -/
  tx : Option FrameBytes
deriving DecidableEq, Repr

/-! ### The Conductor -/

/-- The Conductor: power state, pins, verdict latch, counters (R73 to R77, R313 to R319). -/
structure Conductor where
  phase : Phase
  state : PState
  /-- The state chosen at slot 444, effective at the next slot 0. -/
  next : Option PState
  /-- Slots that step 3 of Tacet entry has lasted (Table 04-6). -/
  wait : Nat
  /-- A Tacet that only a reset ends (R84). -/
  locked : Bool
  /-- Detector 8 or 9 forces Tacet at the next slot 444 (R333, Table 17-1). -/
  force : Bool
  /-- No verdict has yet been applied since the start (R273). -/
  starting : Bool
  /-- CAUSE of that start: 0 or 1, and ENTRY (Table 14-12). -/
  cause : Nat
  entry : Nat
  rules : List Nat
  present : Bool
  gest : BitVec 3
  touchN : Bool
  /-- Bars since PRESENT last changed (Table 14-6). -/
  age : Nat
  /-- The verdict latch (R317). -/
  latch : Vector Byte 64
  /-- It was taken in this bar before slot 444. -/
  taken : Bool
  /-- A change of range has spoilt this bar's verdict (R37, R74). -/
  dirty : Bool
  /-- Bars without a fresh verdict (R74). -/
  stale : Nat
  /-- The hold sum in 1/7200 s (R75). -/
  hold : Nat
  /-- c of R318. -/
  plan : Nat
  /-- Bars spent in the state in force (Table 14-12 DUR). -/
  dur : Nat
  /-- A fermata ran in this bar (R98). -/
  ranFermata : Bool
  /-- The last bar ran this state's schedule through slot 444 without an overrun (R230). -/
  good : Bool
  /-- A scrub or another discontinuity makes the next schedule bar exact. -/
  exact : Bool
  /-- An overrun record was made in this stay (R43). -/
  overrunRec : Bool
  /-- Slot 444 of this bar has passed. -/
  past444 : Bool
  /-- State-change records held back until a start ends (R273): CAUSE, FROM, TO, LEN, DUR. -/
  deferred : List (Nat × Nat × Nat × Nat × Nat)
deriving DecidableEq, Repr

/-- A fermata in progress (R95 to R97). -/
structure Fermata where
  /-- It was entered on VWARN; else on VCORE undervoltage. -/
  warn : Bool
  /-- Slots since its entry. -/
  len : Nat
  /-- The release condition has held for 2 beats. -/
  released : Bool
deriving DecidableEq, Repr

/-! ### Flailo -/

/-- What calibration has staged (R326, R327). -/
structure Staged where
  darkW : Option (List Int × List Int)
  darkH : Option (List Int × List Int)
  /-- Staged defects as defect-list words, with the size of each deviation: difference, plane, row, column. -/
  defects : List (Nat × Nat × Nat × Nat)
  touch : Option (List Nat)
deriving DecidableEq, Repr

/-- Flailo mode (R324): what is staged and the response of the latest command. -/
structure Flailo where
  staged : Staged
  response : List Byte
deriving DecidableEq, Repr

/-- The state of the module. -/
structure State where
  /-- The commands that are waiting, first in, first out. -/
  pending : List Instr
  aon : Aon
  supply : Supply
  boot : Boot
  codes : Codes
  metro : Metro
  ref : RefClk
  planeW : PlaneState
  planeH : PlaneState
  vpix : Vpix
  priv : Priv
  thermal : Thermal
  /-- Detectors by DET number, 0 unused (Table 14-13). -/
  dets : Vector Detector 20
  inj : Injection
  limiter : Limiter
  blocks : Blocks
  ram : Ram
  nvm : Nvm
  exec : Exec
  touch : Touch
  accent : Accent
  port : Port
  duet : Duet
  cond : Conductor
  fermata : Option Fermata
  /-- A fermata begins at the next slot boundary: some true on VWARN, some false on VCORE undervoltage. -/
  fermataNext : Option Bool
  flailo : Flailo
  /-- The model's own counter, from which free values are drawn (log entry 6). -/
  free : Nat
deriving DecidableEq, Repr

/-! ### Reset -/

def Detector.none : Detector := ⟨false, 0, false, 0, 0, 0, .none⟩

def BarCode.zero : BarCode := ⟨0, none, none⟩

def PlaneState.off : PlaneState :=
  { power := .off, reading := false, bin := 1, black := 0, blackNext := none, blackSum := 0, acc := [],
    stave := Vector.replicate 16 none, coming := none, stored := false, used := none, next := none, after := none, expStart := none }

def Lane.zero : Lane := ⟨Vector.replicate 32 0, Vector.replicate 8 false⟩

def Node.zero : Node := ⟨0, 0, false, 0, 0, 0, false⟩

def Gesture.zero : Gesture := ⟨0, 0, 0, 0, false, none, false⟩

def Touch.off : Touch :=
  { on := false, nodes := Vector.replicate 128 Node.zero, fresh := true, scanning := false, chg := false,
    scanNoise := false, scanSense := 0, noise := false, noisy := [], quiet := 0, lastNoise := 0, gesture := Gesture.zero, summary := 0, done := false }

def Accent.off : Accent := ⟨.idle, none, false, .off, 0, 0, 0⟩

def Metro.off : Metro :=
  { on := false, slot := 0, slot0 := false, due := [], issue := [], len := 0, start := 0, sched := false, run := false,
    overScaled := false, noRun := false, hold := false, waited := 0, next := none, x := 0, tlPrev := none, r := 0, rRecv := 0,
    aligned := false, barErrors := [] }

def RefClk.zero : RefClk := ⟨false, 0, false, 0, 0, 0⟩

def Duet.off : Duet :=
  { link := .off, epoch := 0, digIdx := 0, seen := 0, ready := false, partnerReady := false, q3 := [], txSeq := 0,
    flight := [], acks := [], memory := [], halves := [], relayed := [], partner := [], pDivx := 0, pState := none,
    wakes := [], quiet := 0, noticed := false, held := false, goSent := none, commit := none, handover := false, change := false,
    tx := none }

def Exec.zero : Exec :=
  { ctx := 0, pins := 0, cues := Vector.replicate 128 0, q0 := [], q1 := [], tutti := [], soli := [], opId := 0,
    sections := Vector.replicate 32 none, stopped := false, abandon := false, clips := Vector.replicate 64 (0, 0),
    skipped := 0, restAge := 0, restWeak := 0, marked := 0, tiles := [], r := 0 }

def Limiter.idle : Limiter :=
  { on := false, armed := false, up := true, iOld := 0, iNew := 0, allow := 0, k := 0, acts := [], busy := none,
    tried := false, planes := [], paused := false, dst := .tacet }

def Blocks.off : Blocks := ⟨0, false, 0, 0, 0⟩

def Thermal.zero : Thermal := ⟨0, 0, 0, false, false, 0⟩

/-- PRIV_N is set to asserted at the start of every reset (R37). -/
def Priv.reset : Priv := ⟨true, 0, 0, 0, false, false, false, false, false, false, false, false⟩

/-- What the AON domain holds when it powers on (R39, R91, R98, R114, R274, R277, R339). -/
def Aon.lost : Aon :=
  { on := false, tokens := 0, acc := 0, leak := none, seq := 0, idle := 0, trim := 0, unclean := none, drops := 0,
    dropFlag := false, lock := none, bar := 0, warnings := [], warnCap := false, capNext := false, cleanBars := 0, wakeTimer := none }

def Boot.zero : Boot :=
  { straps := ⟨0, false, false, false⟩, selSampled := 0, started := false, pairs := 0,
    pads := Vector.replicate 6 ⟨none, false⟩, entry := 2, digest := Vector.replicate 32 0, broken := false, tempo := 0, slew := 0 }

def Conductor.zero : Conductor :=
  { phase := .off, state := .tacet, next := none, wait := 0, locked := false, force := false, starting := true, cause := 0,
    entry := 2, rules := [], present := false, gest := 7, touchN := true, age := 0, latch := Vector.replicate 64 0,
    taken := false, dirty := false, stale := 0, hold := 0, plan := 0, dur := 0, ranFermata := false, good := false, exact := true,
    overrunRec := false, past444 := false, deferred := [] }

/-- The module before any supply has come up: the AON domain is off and holds what it has when it powers on, the OTP is
unprogrammed and unsealed. What a program needs before it runs stands in log entry 2. -/
def State.reset : State :=
  { pending := []
    aon := Aon.lost
    supply := ⟨false, false, false, true, false, false, false, false, 0⟩
    boot := Boot.zero
    codes := ⟨BarCode.zero, BarCode.zero, BarCode.zero, BarCode.zero⟩
    metro := Metro.off
    ref := RefClk.zero
    planeW := PlaneState.off
    planeH := PlaneState.off
    vpix := ⟨false, false, false, false⟩
    priv := Priv.reset
    thermal := Thermal.zero
    dets := Vector.replicate 20 Detector.none
    inj := ⟨0, false, false⟩
    limiter := Limiter.idle
    blocks := Blocks.off
    ram := ⟨[], [], []⟩
    nvm := ⟨Config.stockRom, [], [], false, []⟩
    exec := Exec.zero
    touch := Touch.off
    accent := Accent.off
    port := ⟨false, [], 0, none, false⟩
    duet := Duet.off
    cond := Conductor.zero
    fermata := none
    fermataNext := none
    flailo := ⟨⟨none, none, [], none⟩, []⟩
    free := 0 }

end Sys2Proof.Machine
end

