-- ==== Sys2Proof/Machine/Tables.lean ====
section
/-!
DEFINITION. The manual's code tables: resistor bands, code meanings, divisors, safe points (Tables 03-3, 03-4, 04-2, 05-1).
-/
namespace Sys2Proof.Machine

/-- Lower band edges of codes 1 to 15 in ohms (Table 03-3). -/
def bandEdges : List Nat :=
  [224, 1225, 1821, 2676, 3923, 5758, 8438, 12370, 18210, 26760, 39230, 57580, 84380, 123700, 387300]

/-- The code of a resistance: a result exactly on an edge takes the higher code (R65). -/
def bandCode (ohms : Nat) : RzCode := BitVec.ofNat 4 (bandEdges.filter (· ≤ ohms)).length

/-- The code one measurement gives (R65): the 100 uA result when the 10 uA result is below 16.0 kOhm; the source's compliance
reads any resistance of 400 kOhm or more as 400 kOhm. -/
def measureCode (m : Measure) : RzCode :=
  let r1 := min m.at10uA 400000
  bandCode (if r1 < 16000 then m.at100uA else r1)

/-- Bars/s of a TEMPO code (Table 05-1). -/
def tempoRate (c : RzCode) : Nat :=
  [15, 20, 24, 25, 30, 40, 45, 48, 50, 60, 72, 75, 90, 96, 100, 120].getD c.toNat 15

/-- Records/s of a LEAK code (Table 03-4). -/
def leakRate (c : RzCode) : Nat :=
  [1, 2, 4, 6, 8, 10, 15, 20, 30, 40, 50, 60, 75, 90, 100, 120].getD c.toNat 1

/-- The limiter's move in one 10 us tick, in uA (Table 03-4 SLEW in mA/ms times 10); none for code 15, unlimited. -/
def slewStep (c : RzCode) : Option Int :=
  [some 5, some 10, some 20, some 30, some 50, some 70, some 100, some 150, some 200, some 300, some 500, some 700,
   some 1000, some 1500, some 2000, none].getD c.toNat none

/-- The divisor of a divisor index, 0 to 9 (R101, Table 15-3). -/
def divisor (ix : Nat) : Nat := [1, 2, 3, 4, 6, 8, 12, 16, 30, 60].getD ix 1

/-- b_nom of R102. -/
def barNominal (tempo : RzCode) (div : Nat) : Nat := 48000000 * div / tempoRate tempo

/-- VCORE safe points in steps of 12.5 mV above 0.500 V (Table 04-2), by state number 1 to 3; Tacet, to which a ramp leads
before VCORE goes off, has the lower one (log entry 64). -/
def safePoint (st : Nat) : Nat := if st ≥ 2 then 24 else 4

/-- Th of R247 in counts. -/
def touchThreshold (sense : RzCode) : Int := 80 * (1 + (sense.toNat : Int))

/-- The default codes of R67, in the pads' order TEMPO, RUBATO, LEAK, SENSE, SLEW, INJECT. -/
def defaultCode (pad : Nat) : RzCode := if pad = 3 then 15 else 0

/-- The accumulator's step at which one token is added (R274). -/
def leakFull : Nat := 32960

/-- The cap of the token count (R39). -/
def tokenCap : Nat := 8

/-- Slots in a bar (R7). -/
def slotsPerBar : Nat := 448

/-- Width of a plane in pixels (Table 06-1). -/
def planeWidth : Plane → Nat
  | .w => 640
  | .h => 320

/-- Height of a plane in pixels. -/
def planeHeight : Plane → Nat
  | .w => 400
  | .h => 320

/-! ### The memory map (Table 07-1) -/

def otpBase : Nat := 0x400000
def calBase : Nat := 0x600000
def sramBase : Nat := 0x10000000
def heldBase : Nat := 0x10400000
def heldEnd : Nat := 0x10440000
def staveBaseW : Nat := 0x20000000
def staveBaseH : Nat := 0x20008000
def ctxAddr : Nat := 0x31000000
def pinAddr : Nat := 0x31000004

/-- The bank of a tensor SRAM address (R136). -/
def bankOf (a : Nat) : Nat := (a - sramBase) / 0x40000

/-- The base of stock image or OTP slot (R138, R311). -/
def imageBase (sel : Nat) : Nat :=
  if sel < 6 then sel * 0xA0000 else if sel = 6 then 0x400000 else 0x500000

/-- The window capacity of R311. -/
def imageCapacity (sel : Nat) : Nat := if sel < 6 then 0xA0000 else 0x100000

/-- States as records and the context word encode them (Tables 07-3, 14-2). -/
def PState.num : PState → Nat
  | .tacet => 0
  | .pianissimo => 1
  | .mezzo => 2
  | .forte => 3

def PState.ofNum : Nat → PState
  | 1 => .pianissimo
  | 2 => .mezzo
  | 3 => .forte
  | _ => .tacet

def PState.min (a b : PState) : PState := if a.num ≤ b.num then a else b
def PState.max (a b : PState) : PState := if a.num ≤ b.num then b else a

end Sys2Proof.Machine
end

