-- ==== Sys2Proof/Machine/Ops.lean ====
section
/-!
DEFINITION. The named operations over memory: sparse bytes in one canonical form, tensor SRAM and the held store with
their written flags (R140, R359), the ROM and OTP, and the score window (R138).
-/
namespace Sys2Proof.Machine

/-! ### Sparse bytes -/

/-- The byte at an address; an address that is not listed holds 0. -/
def cellGet : List Host.Cell → Nat → Byte
  | [], _ => 0
  | (k, b) :: r, a => if k = a then b else cellGet r a

/-- Writing one byte: the list stays in rising order and lists no 0. -/
def cellSet : List Host.Cell → Nat → Byte → List Host.Cell
  | [], a, b => if b = 0 then [] else [(a, b)]
  | (k, v) :: r, a, b =>
    if a < k then (if b = 0 then (k, v) :: r else (a, b) :: (k, v) :: r)
    else if a = k then (if b = 0 then r else (a, b) :: r)
    else (k, v) :: cellSet r a b

/-- Adding a number to a rising list without repeats. -/
def numInsert : List Nat → Nat → List Nat
  | [], n => [n]
  | k :: r, n => if n < k then n :: k :: r else if n = k then k :: r else k :: numInsert r n

def numErase (l : List Nat) (n : Nat) : List Nat := l.filter (· ≠ n)

/-- Rising order without repeats. -/
def rising : List Nat → Bool
  | [] => true
  | [_] => true
  | a :: b :: r => decide (a < b) && rising (b :: r)

/-- The canonical form of sparse bytes. -/
def cellsWf (c : List Host.Cell) : Bool := rising (c.map (·.1)) && c.all fun x => x.2 ≠ 0

/-! ### Tensor SRAM and held store (R140, R359) -/

/-- The canonical form of the memory: bytes in rising order, none 0, all in written words; flags and errors in rising
order; an error only in a written word. -/
def Ram.wf (r : Ram) : Bool :=
  cellsWf r.cells && rising r.flags && rising r.bad && r.cells.all (fun x => r.flags.contains (x.1 / 8))
    && r.bad.all (fun w => r.flags.contains w)

/-- One byte as a load or data read returns it: zero where the written flag is clear (R140) or the word holds an
uncorrectable error (R333). -/
def Ram.read (r : Ram) (a : Nat) : Byte :=
  if r.flags.contains (a / 8) && !r.bad.contains (a / 8) then cellGet r.cells a else 0

/-- Bytes written into one word: the flag is set; the bytes not written of a word whose flag was clear are zero. -/
def Ram.put (r : Ram) (w : Nat) (bs : List (Nat × Byte)) : Ram :=
  { r with cells := bs.foldl (fun c x => cellSet c x.1 x.2) r.cells, flags := numInsert r.flags w }

/-- A store of the bytes `bs` of word `w` (R359): a store of the whole word removes its error, a smaller one into a word
that holds an error is discarded. -/
def Ram.store (r : Ram) (w : Nat) (bs : List (Nat × Byte)) : Ram :=
  if bs.length ≥ 8 then Ram.put { r with bad := numErase r.bad w } w bs
  else if r.bad.contains w then r
  else r.put w bs

/-- Clearing the written flags of the words that `p` names, and with each flag the word's bytes and error. -/
def Ram.clear (r : Ram) (p : Nat → Bool) : Ram :=
  { cells := r.cells.filter fun x => !p (x.1 / 8)
    flags := r.flags.filter fun w => !p w
    bad := r.bad.filter fun w => !p w }

/-- A scrub clears every written flag (R140). -/
def Ram.empty : Ram := ⟨[], [], []⟩

/-- Marking a written word as holding an uncorrectable error. -/
def Ram.upset (r : Ram) (w : Nat) : Ram :=
  if r.flags.contains w then { r with bad := numInsert r.bad w } else r

/-- The bytes of one store split by the 64-bit words they lie in, in rising order (R139). -/
def byWord (a : Nat) (bs : List Byte) : List (Nat × List (Nat × Byte)) :=
  let cells := bs.mapIdx fun i b => (a + i, b)
  (fromTo (a / 8) ((a + bs.length - 1) / 8)).map fun w => (w, cells.filter fun x => x.1 / 8 = w)

/-! ### The repertoire ROM (R31, R310, R311, R323) -/

/-- The offset in stock image `n` of section `kind`, from the image's directory, which the manual leaves free. -/
def stockSection (free : List Host.Cell) (n kind : Nat) : Nat :=
  64 + leNat ((List.range 4).map fun i => cellGet free (0xA0000 * n + 64 + 8 * kind + i))

/-- What the diagnostic score declares beyond its one state (Table 16-9, R323): a plan entry of its Mezzo block is unused or of type 6, and no rule of
its state table leads to Pianissimo, which the score does not list. Sections, offsets, bits and values as in `stockBody`. -/
def stockDiagnostic (free : List Host.Cell) : List (Nat × Nat × Byte × Byte) :=
  let byteAt (kind off : Nat) : Byte := cellGet free (0xA0000 * 5 + stockSection free 5 kind + off)
  (List.range 6).map (fun i => (10, 96 + 8 * i, 0x0F, if byteAt 10 (96 + 8 * i) &&& 0x0F = 0 then 0 else 6))
    ++ (List.range (min 32 (byteAt 1 1).toNat)).map fun i => (1, 8 + 4 * i, 0x04, 0)

/-- What Table 16-9 and R31 say of the sections of stock image `n`: for some bytes the section, the offset in it, the bits given and their
values. Declared limits: LED_MA, MAXSTATE, DIVX of score 0 in Pianissimo, DIVX and peak of score 1 in Mezzo (Table 19-2), the peaks of
score 3. Score 5: INIT is its one state, and its Mezzo verdict block has PRES_EN and GEST_EN 0. -/
def stockBody (free : List Host.Cell) (n : Nat) : List (Nat × Nat × Byte × Byte) :=
  [(11, 0, 0xFF, if n = 2 || n = 3 then 3 else 2), (11, 1, 0xFF, 2)]
    ++ (match n with
      | 0 => ([(11, 48, 0xFF, 9)] : List (Nat × Nat × Byte × Byte))
      | 1 => [(11, 112, 0xFF, 0), (11, 114, 0xFF, 70), (11, 115, 0xFF, 0)]
      | 3 => [(11, 50, 0xFF, 4), (11, 51, 0xFF, 0), (11, 114, 0xFF, 90), (11, 115, 0xFF, 0), (11, 178, 0xFF, 0x58), (11, 179, 0xFF, 2)]
      | 5 => [(1, 0, 0xFF, 2), (10, 80, 0x80, 0), (10, 82, 0x80, 0)] ++ stockDiagnostic free
      | _ => [])

/-- The first four digest bytes of each stock score (Table 16-9). -/
def stockDigest (n : Nat) : List Byte :=
  [[0x3F, 0x9C, 0x07, 0xA2], [0xB4, 0xE1, 0x5D, 0x08], [0x71, 0xA0, 0xC3, 0xF6], [0xE8, 0x2D, 0x9B, 0x14], [0x0C, 0x57, 0xA6, 0xE9],
   [0x5A, 0x3B, 0x20, 0xDF]].getD n []

/-- The bytes of an image's header that Table 16-1 fixes, with the known digest bytes: offset, bits given, values. -/
def stockHeader (n : Nat) : List (Nat × Byte × Byte) :=
  (([0x50, 0x4B, 0x53, 0x43, 1, 0, 0, 0] : List Byte).mapIdx fun i b => (i, 0xFF, b)) ++ ((fromTo 12 15 ++ fromTo 48 63).map fun i => (i, 0xFF, 0))
    ++ (stockDigest n).mapIdx fun i b => (16 + i, 0xFF, b)

/-- Everything that the manual gives of stock image `n`, by offset in the image. A section lies behind header and directory. -/
def stockGiven (free : List Host.Cell) (n : Nat) : List (Nat × Byte × Byte) :=
  stockHeader n ++ ((stockBody free n).map fun f => (stockSection free n f.1 + f.2.1, f.2.2)).filter fun f => 192 ≤ f.1

/-- A byte of the repertoire ROM: what the manual gives of it, the rest from the free contents `free`. -/
def romByte (free : List Host.Cell) (a : Nat) : Byte :=
  let b := cellGet free a
  if a < 6 * 0xA0000 then
    match (stockGiven free (a / 0xA0000)).find? (fun f => f.1 = a % 0xA0000) with
    | some (_, bits, v) => (b &&& ~~~bits) ||| v
    | none => b
  else b

/-! ### ROM and OTP -/

/-- One byte of repertoire ROM, score OTP or calibration OTP, at its shared-space address; unprogrammed bytes read 0 (R130), and so does a
word that fails (R333). -/
def Nvm.read (n : Nvm) (a : Nat) : Byte :=
  if n.failing.contains (a / 8) then 0 else if a < otpBase then romByte n.rom a else cellGet n.otp a

/-- The address of a byte of repertoire ROM, score OTP or calibration OTP (Table 07-1). -/
def inRom (a : Nat) : Bool := a < calBase + 0x2000

/-- The words of ROM and OTP in which reads find an uncorrectable error. -/
def romFailures (ups : List Upset) : List Nat := (ups.filter fun u => u.multi && inRom u.addr).map (·.addr / 8)

def Nvm.bytes (n : Nvm) (a len : Nat) : List Byte := (List.range len).map fun i => n.read (a + i)

def Nvm.u (n : Nvm) (a len : Nat) : Nat := leNat (n.bytes a len)

/-- A byte of calibration OTP by its offset (Table 16-12). -/
def Nvm.cal (n : Nvm) (off : Nat) : Byte := n.read (calBase + off)

/-! ### The selected image and its window (R138, R310, R312) -/

/-- The latched SEL. -/
def State.sel (s : State) : Nat := s.boot.straps.sel.toNat

def bodyLen (s : State) : Nat := s.nvm.u (imageBase s.sel + 8) 4

/-- A byte of the score body: an offset at or beyond the body's length is refused and reads 0 (R138, R139). -/
def bodyByte (s : State) (off : Nat) : Byte :=
  if off < bodyLen s then s.nvm.read (imageBase s.sel + 64 + off) else 0

def bodyBytes (s : State) (off len : Nat) : List Byte := (List.range len).map fun i => bodyByte s (off + i)

/-- A little-endian number of `len` bytes of the body. -/
def bodyU (s : State) (off len : Nat) : Nat := leNat (bodyBytes s off len)

def secOff (s : State) (kind : Nat) : Nat := bodyU s (8 * kind) 4
def secLen (s : State) (kind : Nat) : Nat := bodyU s (8 * kind + 4) 4

/-- A number inside a section. -/
def secU (s : State) (kind off len : Nat) : Nat := bodyU s (secOff s kind + off) len

end Sys2Proof.Machine
end

