-- ==== Sys2Proof/Machine/Score.lean ====
section
/-!
DEFINITION. The selected score's declarations as the Conductor, the Metronome and the Dynamics controller read them:
declared limits, state table, schedules, verdict map and the sync block of operations.
-/
namespace Sys2Proof.Machine

/-! ### Declared limits (Tables 16-7, 16-8) -/

def maxState (s : State) : Nat := field (secU s 11 0 1) 0 2
def ledMa (s : State) : Nat := secU s 11 1 1
def tacetWake (s : State) : Nat := secU s 11 2 2

/-- A field of the limits block of state number `st`, 1 to 3; 0 for Tacet. -/
def limU (s : State) (st off len : Nat) : Nat := if st = 0 then 0 else secU s 11 (48 + 64 * (st - 1) + off) len

def stDivx (s : State) (st : Nat) : Nat := limU s st 0 1
def stBin (s : State) (st : Nat) (p : Plane) : Nat :=
  match p with
  | .w => field (limU s st 1 1) 0 2
  | .h => field (limU s st 1 1) 2 2
def stPeak (s : State) (st : Nat) : Nat := limU s st 2 2
def stTclk (s : State) (st : Nat) : Nat := limU s st 4 2
def stSclk (s : State) (st : Nat) : Nat := limU s st 6 2
def stBanks (s : State) (st : Nat) : Nat := limU s st 8 2
def stHeld (s : State) (st : Nat) : Bool := bitAt (limU s st 10 1) 0
def stExposure (s : State) (st : Nat) (p : Plane) : Nat :=
  match p with
  | .w => limU s st 12 4
  | .h => limU s st 16 4
/-- A byte or word of the touch block (Table 13-1). -/
def stTouch (s : State) (st off len : Nat) : Nat := limU s st (20 + off) len
def stReprise (s : State) (st : Nat) : Nat := limU s st 60 4

/-- n of n by n binning from WBIN or HBIN: 0 off, 1, 2 or 4. -/
def binFactor (code : Nat) : Nat := [0, 1, 2, 4].getD code 0

/-- The state powers the plane. -/
def stPlane (s : State) (st : Nat) (p : Plane) : Bool := stBin s st p ≠ 0

/-- The divisor of a state. -/
def stDivisor (s : State) (st : Nat) : Nat := divisor (stDivx s st)

/-- b_nom of a state in 48 MHz cycles (R102). -/
def stBarLen (s : State) (st : Nat) : Nat := barNominal s.boot.tempo (stDivisor s st)

/-! ### State table (R313) -/

def initState (s : State) : Nat := field (secU s 1 0 1) 0 2
def nRule (s : State) : Nat := secU s 1 1 1
def stateRule (s : State) (i : Nat) : Nat := secU s 1 (8 + 4 * i) 4

/-- States that a score uses (R321). -/
def stUsed (s : State) (st : Nat) : Bool :=
  st ≠ 0 && (st = initState s || (List.range (nRule s)).any (fun i => field (stateRule s i) 2 2 = st)
    || (st = 2 && maxState s ≥ 2))

/-! ### Schedules (R315, Table 05-4) -/

def schedCount (s : State) (st : Nat) : Nat := secU s 2 (8 * (st - 1) + 4) 2
def schedOff (s : State) (st : Nat) : Nat := secU s 2 (8 * (st - 1)) 4
def schedEntry (s : State) (st i : Nat) : Entry :=
  let w := secU s 2 (schedOff s st + 4 * i) 4
  ⟨field w 0 9, field w 9 3, BitVec.ofNat 16 (field w 16 16)⟩

/-- The entries of a state's list that lie in one slot, in table order. -/
def slotEntries (s : State) (st slot : Nat) : List Entry :=
  ((List.range (schedCount s st)).map (schedEntry s st)).filter fun e => e.slot = slot

/-! ### Verdict map (Tables 16-4 to 16-6) -/

def vvAddr (s : State) : Nat := secU s 10 0 4
def vCue (s : State) : Nat := field (secU s 10 4 1) 0 7
def vTgt (s : State) : Nat := secU s 10 5 2
def nEff (s : State) : Nat := field (secU s 10 7 1) 0 3
def pHold (s : State) : Nat := secU s 10 8 1
def verdictU (s : State) (st off len : Nat) : Nat := secU s 10 (16 + 64 * (st - 1) + off) len
def planEntry (s : State) (st i : Nat) : Nat := verdictU s st (16 + 8 * i) 8
/-- A field of effect `e`, 1 to NEFF (Table 13-4). -/
def effectU (s : State) (e off len : Nat) : Nat := secU s 10 (208 + 8 * (e - 1) + off) len

/-! ### Operations (Table 07-5) -/

/-- The byte offset in the body of Tutti descriptor `i`, and of Soli launch record `i`. -/
def descOff (s : State) (i : Nat) : Nat := secOff s 3 + 64 * i
def recOff (s : State) (i : Nat) : Nat := secOff s 4 + 32 * i
def nDesc (s : State) : Nat := secLen s 3 / 64
def nRec (s : State) : Nat := secLen s 4 / 32

/-- A wait word: cue, active, target. -/
structure Wait where
  cue : Nat
  active : Bool
  target : Nat
deriving DecidableEq, Repr

def waitOf (w : Nat) : Wait := ⟨field w 0 7, bitAt w 7, field w 8 16⟩

/-- The sync block of R144. -/
structure Sync where
  a : Wait
  b : Wait
  postCue : Nat
  postInc : Nat
  deadline : Nat
deriving DecidableEq, Repr

/-- The sync block that begins at a body offset. -/
def syncAt (s : State) (off : Nat) : Sync :=
  let p := bodyU s (off + 8) 2
  ⟨waitOf (bodyU s off 4), waitOf (bodyU s (off + 4) 4), field p 0 7, field p 7 9, field (bodyU s (off + 10) 2) 0 9⟩

end Sys2Proof.Machine
end

