-- ==== Sys2Proof/Machine/Records.lean ====
section
/-!
DEFINITION. Detectors (R330), event records (R266 to R280), the event ring Q2 (R272, R276) and the Duet ring Q3 (R286, R288):
building a record, enqueueing it, dropping and counting.
-/
namespace Sys2Proof.Machine

/-! ### Detectors -/

def State.det (s : State) (d : Nat) : Detector := (s.dets[d]?).getD Detector.none

def State.setDet (s : State) (d : Nat) (x : Detector) : State := { s with dets := s.dets.setIfInBounds d x }

/-- One trip of a detector (R330), detected at a bar and slot. -/
def tripAt (s : State) (d : Nat) (inj : Bool) (detail : BitVec 32) (bar : BitVec 16) (slot : Nat) : State :=
  let x := s.det d
  s.setDet d { x with
    pending := true
    count := min (x.count + 1) 65535
    injected := (x.pending && x.injected) || inj
    bar := if x.pending then x.bar else bar
    slot := if x.pending then x.slot else slot
    detail := detail }

/-- One trip of a detector in the slot that runs. -/
def trip (s : State) (d : Nat) (inj : Bool) (detail : BitVec 32) : State :=
  tripAt s d inj detail s.aon.bar s.metro.slot

/-- The response of R333 and R154: no further entries, empty queues, the abandonment and the scrub still to come. -/
def stopEntries (s : State) : State :=
  { s with
    metro := { s.metro with issue := [] }
    exec := { s.exec with q0 := [], q1 := [], stopped := true, abandon := true } }

/-- An uncorrectable error in SRAM (detector 7) or in ROM or OTP (detector 8) at a word address (R333). -/
def eccTrip (s : State) (d : Nat) (addr : Nat) : State :=
  let s := stopEntries (trip s d false (BitVec.ofNat 32 addr))
  if d = 8 then { s with cond := { s.cond with force := true } } else s

/-- What the Conductor or the Metronome does with ROM and OTP reads that find the errors `ups`: the failing words read zero, and detector 8
trips for each (R333). -/
def withRomErrors (s : State) (ups : List Upset) (act : State → State) : State :=
  match romFailures ups with
  | [] => act s
  | w :: ws =>
    let t := act { s with nvm := { s.nvm with failing := w :: ws } }
    (w :: ws).foldl (fun t w => eccTrip t 8 (8 * w)) { t with nvm := { t.nvm with failing := s.nvm.failing } }

/-- Injection code `c` acts (R337, R339): it is effective, TEST is latched and no lock holds it. -/
def State.inject (s : State) (c : Nat) : Bool := s.inj.code = BitVec.ofNat 4 c

/-! ### Roles -/

def State.role (s : State) : Bool := s.boot.straps.role

/-- The Duet leader: up, and ROLE equals bit 0 of the epoch (R291). -/
def State.leader (s : State) : Bool := s.duet.link = .up && s.role = s.duet.epoch.getLsbD 0

def State.follower (s : State) : Bool := s.duet.link = .up && s.role != s.duet.epoch.getLsbD 0

/-! ### Records -/

/-- FLAGS (Table 14-3) without STALE and DROP. -/
def flagsOf (s : State) : Nat :=
  let b (x : Bool) (i : Nat) := if x then 2 ^ i else 0
  b s.fermata.isSome 1 + b s.inj.active 2 + b s.boot.straps.test 3 + b s.leader 4 + b s.priv.asserted 5
    + b (s.fermata.any (·.warn)) 6

/-- The 32 bytes of a record: header, payload, digest fragment and CRC (Table 14-2, R279, R280). -/
def recordOf (s : State) (type seq flags src : Nat) (payload : List Byte) : Record :=
  let word := s.metro.slot + 512 * s.cond.state.num + 4096 * src
  let i := seq % 16
  let dig (k : Nat) : Byte := (s.boot.digest[k]?).getD 0
  let body : List Byte :=
    [0xA5, BitVec.ofNat 8 (16 + type), BitVec.ofNat 8 seq, BitVec.ofNat 8 flags] ++ leBytes 2 s.aon.bar.toNat
      ++ leBytes 2 word ++ (List.range 20).map (fun k => payload.getD k 0) ++ [dig (2 * i), dig (2 * i + 1)]
  let all := body ++ leBytes 2 (crc16 body)
  Vector.ofFn fun k : Fin 32 => all.getD k.val 0

/-- Records dropped or discarded: counted for DROPS, and the next enqueue carries DROP (R276). -/
def countDrop (s : State) (n : Nat) : State :=
  if n = 0 then s else { s with aon := { s.aon with drops := min (s.aon.drops + n) 65535, dropFlag := true } }

/-- Room for one more record in Q2: the oldest entry is dropped, or the second oldest when the oldest is partly read (R276). -/
def makeRoom (s : State) : State :=
  if s.port.ring.length < 64 then s else
    let ring := match s.port.ring with
      | [] => []
      | a :: r => if a.st = .partly then a :: r.drop 1 else r
    countDrop { s with port := { s.port with ring := ring } } 1

/-- Enqueueing a record in Q2 (R267, R272, R276, R277); `flags` without DROP. The caller has made room. -/
def pushQ2 (s : State) (type flags src : Nat) (payload : List Byte) : State :=
  let f := flags % 128 + (if s.aon.dropFlag then 128 else 0)
  let r := recordOf s type s.aon.seq.toNat f src payload
  { s with
    aon := { s.aon with seq := s.aon.seq + 1, dropFlag := false }
    port := { s.port with ring := s.port.ring ++ [⟨r, .enqueued, s.port.stamp⟩] } }

/-- Enqueueing a message frame in Q3, which holds 16; a frame that finds it full is dropped and counted (DESIGN CHOICE, log entry 9). -/
def pushQ3 (s : State) (type : BitVec 4) (body : List Byte) : State :=
  if s.duet.q3.length < 16 then
    let m : Msg := ⟨type, Vector.ofFn fun k : Fin 12 => body.getD k.val 0, false, s.port.stamp⟩
    { s with duet := { s.duet with q3 := s.duet.q3 ++ [m] } }
  else countDrop s 1

/-- A relayed record as its two message frames (R288, R299). -/
def pushRelay (s : State) (type flags : Nat) (payload : List Byte) : State :=
  let p := (List.range 20).map fun k => payload.getD k 0
  if s.duet.q3.length + 2 ≤ 16 then
    let f := flags % 128 + (if s.aon.dropFlag then 128 else 0)
    let s := { s with aon := { s.aon with dropFlag := false } }
    pushQ3 (pushQ3 s 4 ([BitVec.ofNat 8 type, BitVec.ofNat 8 f] ++ p.take 10)) 5 (p.drop 10)
  else countDrop s 1

/-- A record is sent to the leader: the module is follower and no handover bar runs (R281, R299, R306). -/
def State.relays (s : State) : Bool := s.follower && !s.duet.handover

/-- Enqueueing one of the module's own records where it belongs, its payload formed after room has been made. -/
def pushRecord (s : State) (type : Nat) (stale : Bool) (src : Nat) (payload : State → List Byte) : State :=
  let f := flagsOf s + (if stale then 1 else 0)
  if s.relays then pushRelay s type f (payload s)
  else
    let s := makeRoom s
    pushQ2 s type f src (payload s)

/-- A new cycle of enqueueing: the entries that one step enqueues share a stamp (R274). -/
def newStamp (s : State) : State := { s with port := { s.port with stamp := s.port.stamp + 1 } }

/-- The payload of a fault record (Table 14-13). -/
def faultPayload (s : State) (d : Nat) (ongoing : Bool) (step : Nat) : List Byte :=
  let x := s.det d
  [BitVec.ofNat 8 d, BitVec.ofNat 8 ((if x.injected then 1 else 0) + (if ongoing then 2 else 0)), BitVec.ofNat 8 step, 0]
    ++ leBytes 2 x.bar.toNat ++ leBytes 2 x.slot ++ leBytes 4 x.detail.toNat ++ leBytes 2 x.count

/-- A fault record: it takes the detector's count and flag, which then clear (R330). -/
def pushFault (s : State) (d : Nat) (ongoing : Bool) (step : Nat) : State :=
  let t := pushRecord s 8 false 0 fun t => faultPayload t d ongoing step
  t.setDet d { Detector.none with since := some 0 }

/-- A code as the two-bar rule leaves it for the next slot 0 (Table 14-12 CODES). -/
def BarCode.upcoming (c : BarCode) : RzCode := c.conf.getD c.eff

/-- CODES of a state-change record: each code effective from the next slot 0. -/
def codesWord (s : State) : Nat :=
  s.boot.tempo.toNat + 16 * s.codes.rubato.upcoming.toNat + 256 * s.codes.leak.upcoming.toNat
    + 4096 * s.codes.sense.upcoming.toNat + 65536 * s.boot.slew.toNat + 1048576 * s.codes.inject.upcoming.toNat

/-- DEF of a state-change record, in the CODES order: TEMPO, RUBATO, LEAK, SENSE, SLEW, INJECT. -/
def defWord (s : State) : Nat :=
  (List.range 6).foldl (fun a i => a + if ((s.boot.pads[i]?).getD ⟨none, false⟩).default then 2 ^ i else 0) 0

/-- The link is up and, on a follower, aligned (R291). -/
def State.partnerUp (s : State) : Bool := s.duet.link = .up && (s.leader || s.metro.aligned)

/-- The payload of a state-change record (Table 14-12). -/
def changePayload (s : State) (cause frm dst len entry dur : Nat) : List Byte :=
  let st := s.boot.straps
  let b (x : Bool) (i : Nat) := if x then 2 ^ i else 0
  [BitVec.ofNat 8 cause, BitVec.ofNat 8 (frm + 8 * dst)] ++ leBytes 2 (min len 65535) ++ leBytes 3 (codesWord s)
    ++ [BitVec.ofNat 8 (defWord s), BitVec.ofNat 8 (st.sel.toNat + b st.role 3 + b st.duet 4 + b st.test 5),
        BitVec.ofNat 8 (b s.aon.warnCap 0 + b (s.thermal.throttle || s.inject 4) 1 + b (s.thermal.shutdown || s.inject 5) 2
          + b s.partnerUp 3),
        BitVec.ofNat 8 entry, 0]
    ++ leBytes 4 (min dur 4294967295) ++ leBytes 2 s.aon.drops ++ [0, 0]

/-- A state-change record; DROPS counts from it anew, unless a follower's full Q3 has dropped the record itself. -/
def pushChange (s : State) (cause frm dst len entry dur : Nat) : State :=
  let lost := s.relays && 16 < s.duet.q3.length + 2
  let t := pushRecord s 7 false 0 fun t => changePayload t cause frm dst len entry dur
  if lost then t else { t with aon := { t.aon with drops := 0 } }

/-- A state-change record at its point, or held back while a start runs (R273). -/
def noteChange (s : State) (cause frm dst len dur : Nat) : State :=
  if s.cond.starting then { s with cond := { s.cond with deferred := s.cond.deferred ++ [(cause, frm, dst, len, dur)] } }
  else pushChange s cause frm dst len 0 dur

end Sys2Proof.Machine
end

