-- ==== Sys2Proof/Machine/Sequence.lean ====
section
/-!
DEFINITION. Operations that several steps share: scrub and abandonment (R140, R154), stopping and powering planes (R13, R33),
tearing a module down to reset (R56, R89, R90), and the Duet link going down (R292).
-/
namespace Sys2Proof.Machine

/-- The state in force, as the score's blocks number it. -/
def State.st (s : State) : Nat := s.cond.state.num

/-! ### Scrub and abandonment -/

/-- A scrub clears the written flags, the pin-sample word (R143), the clip counters (R188) and the approximation counters (R241). -/
def scrub (s : State) : State :=
  { s with
    ram := Ram.empty
    exec := { s.exec with
      pins := 0, clips := Vector.replicate 64 (0, 0), skipped := 0, restAge := 0, restWeak := 0, marked := 0 }
    cond := { s.cond with exact := true } }

/-- Every operation in flight or queued is abandoned: no post, no count (R95, R154). -/
def abandonOps (s : State) : State :=
  { s with exec := { s.exec with q0 := [], q1 := [], tutti := [], soli := [], sections := Vector.replicate 32 none } }

/-! ### Planes -/

def State.plane (s : State) (p : Plane) : PlaneState :=
  match p with
  | .w => s.planeW
  | .h => s.planeH

def State.setPlane (s : State) (p : Plane) (x : PlaneState) : State :=
  match p with
  | .w => { s with planeW := x }
  | .h => { s with planeH := x }

/-- Clearing a stave zeroes every entry and clears every valid bit (R129). -/
def PlaneState.clearStave (x : PlaneState) : PlaneState := { x with stave := Vector.replicate 16 none, acc := [], coming := none }

/-- Readout of a plane stops and its stave is cleared (R13). -/
def PlaneState.stop (x : PlaneState) : PlaneState := { x.clearStave with reading := false }

/-- The plane has no supply any more. -/
def PlaneState.unpower (x : PlaneState) : PlaneState := { x.stop with power := .off, expStart := none }

/-- Readout of both planes stops. -/
def stopPlanes (s : State) : State :=
  { s with planeW := s.planeW.stop, planeH := s.planeH.stop, priv := { s.priv with stop := false } }

/-- The VPIX LDO is turned off and its discharge switch closed (R33, R362): the planes lose their supply; the sink stays on
until VPIX has fallen below 0.2 V (R31). -/
def vpixOff (s : State) : State :=
  { s with
    vpix := { s.vpix with ldo := false, sink := s.vpix.above }
    planeW := { s.planeW with power := .off, expStart := none }
    planeH := { s.planeH with power := .off, expStart := none }
    limiter := { s.limiter with busy := none } }

/-- What holds the planes off. -/
def Priv.held (p : Priv) : Bool := p.asserted || p.byPriv || p.byThermal || p.byLed || p.byPath

/-! ### Duet frames (Table 15-1) -/

/-- A frame: header, 12 bytes of body, CRC over bytes 0 to 13 (Table 15-1). -/
def frameOf (s : State) (type seq : BitVec 4) (ack : Option (BitVec 4)) (body : List Byte) : FrameBytes :=
  let b1 := (ack.elim 0 fun a => a.toNat + 16) + (if s.role then 32 else 0)
  let head : List Byte := [BitVec.ofNat 8 (type.toNat + 16 * seq.toNat), BitVec.ofNat 8 b1]
    ++ (List.range 12).map fun k => body.getD k 0
  let all := head ++ leBytes 2 (crc16 head)
  Vector.ofFn fun k : Fin 16 => all.getD k.val 0

/-! ### The Duet link goes down (R292, R309) -/

/-- What the Duet link leaves behind: the records that wait in Q3 or have come from the partner are discarded and counted. -/
def discardLink (s : State) : State := countDrop (countDrop s s.duet.q3.length) s.duet.relayed.length

/-- Retries are cancelled, Q3 is discarded and counted, requests and commitments are cleared; the link is then `dst`. A solo module enqueues no
record of a partner (R281, R309), so those that wait are discarded with Q3 (log entry 36). Acknowledgements due are still sent (R294);
received WAKE windows (R302) and the state of the latest valid BAR (R298) stay. -/
def linkDown (s : State) (dst : LinkState) : State :=
  let d := s.duet
  let s := discardLink s
  { s with
    duet := { Duet.off with
      link := dst, digIdx := d.digIdx, pDivx := d.pDivx, pState := d.pState, wakes := d.wakes, quiet := d.quiet, tx := d.tx,
      acks := if dst = .off then [] else d.acks,
      noticed := d.noticed, change := d.link = .up }
    metro := { s.metro with aligned := false, hold := false, x := 0, r := 0, rRecv := 0, tlPrev := none } }

/-! ### Reset -/

/-- Every entry still in the ring is discarded and counted (R276). -/
def discardRing (s : State) : State :=
  countDrop { s with port := { s.port with ring := [] } } s.port.ring.length

/-- A plane as a reset leaves it: without supply, its storage nodes as they are (R134). -/
def PlaneState.reset (x : PlaneState) : PlaneState := { PlaneState.off with stored := x.stored }

/-- Steps 6 to 4 of Table 04-6 without limiter and wait (R90), and the start of a reset: what the AON domain, the OTP and a powered core base hold
stays; everything else but the link, the slots and the sequence is as the start of a reset leaves it (R37, R56, R262, R276). `core`: the core
base stays powered. -/
def tearDown (s : State) (entry : Nat) (core : Bool) : State :=
  let s := discardRing s
  { s with
    supply := { s.supply with core := core, armed := core && s.supply.armed, vana := core && s.supply.vana, vcore := if core then 4 else 0 }
    boot := { s.boot with started := false, pairs := 0, pads := Vector.replicate 6 ⟨none, false⟩, entry := entry, broken := false }
    codes := ⟨BarCode.zero, BarCode.zero, BarCode.zero, BarCode.zero⟩
    ref := if core then s.ref else RefClk.zero
    planeW := s.planeW.reset
    planeH := s.planeH.reset
    vpix := { s.vpix with ldo := false, sink := s.vpix.above }
    priv := Priv.reset
    inj := ⟨0, false, false⟩
    limiter := Limiter.idle
    blocks := Blocks.off
    ram := Ram.empty
    exec := Exec.zero
    touch := Touch.off
    accent := Accent.off
    port := { s.port with on := false, served := none, release := false }
    fermata := none
    fermataNext := none
    flailo := ⟨⟨none, none, [], none⟩, []⟩ }

/-- The module is held in reset: the link is off, its records are discarded and counted. -/
def enterReset (s : State) (entry : Nat) (core : Bool) : State :=
  let s := tearDown (discardLink s) entry core
  { s with metro := Metro.off, duet := { Duet.off with tx := s.duet.tx }, cond := { Conductor.zero with phase := .reset } }

/-- What Tacet entry and a reset leave of the metronome: slots are counted and frames sent, nothing is scheduled. -/
def Metro.quiet (m : Metro) : Metro :=
  { m with
    sched := false, issue := [], hold := false, run := false, overScaled := false
    due := m.due.filter fun d => d = .thermal || d = .heartbeat || d = .withdraw }

/-- RST_N or VIO begins a reset (R90): steps 6 to 4 take place at once, and a module in the up state enqueues its NOTICE, unless Tacet entry has done
so, and waits in step 3 for the token that sends it (R303, log entry 70). -/
def beginReset (s : State) (entry : Nat) : State :=
  if s.duet.link = .up && s.metro.on then
    let s := newStamp (tearDown s entry true)
    let s := { s with metro := s.metro.quiet, cond := { Conductor.zero with phase := .resetEntry, state := s.cond.state } }
    if s.duet.q3.any fun m => m.type = 9 then s else pushQ3 s 9 [1]
  else enterReset s entry true

/-- The step of Tacet entry that runs, 0 outside it (R89, R90). -/
def stepCode (s : State) : Nat :=
  match s.cond.phase with
  | .tacetEntry k => k
  | _ => 0

/-- Rail-failure isolation: the pads are isolated, the unclean-stop flag takes the step code, and reset follows (R89, R90).
`detail`: DETAIL of DET 19. -/
def isolate (s : State) (detail : Nat) (injected : Bool) (entry : Nat) (core : Bool) : State :=
  let k := stepCode s
  let u : Unclean := match s.aon.unclean with
    | none => ⟨k, detail, injected, s.aon.bar, s.metro.slot, 1⟩
    | some u => { u with step := k, detail := detail, injected := u.injected || injected, count := min (u.count + 1) 65535 }
  let s := enterReset s entry core
  { s with aon := { s.aon with unclean := some u }, supply := { s.supply with isolated := true } }

/-- In a phase in which the module is out of reset. -/
def State.outOfReset (s : State) : Bool :=
  match s.cond.phase with
  | .off => false
  | .resetEntry => false
  | .reset => false
  | _ => true

def State.running (s : State) : Bool := s.cond.phase = .running

/-- Slots and bars are counted: while bars run, through Tacet entry until its step 2 turns the core base off (R88, R103, R112), and through the
step 3 that begins a reset (R90). -/
def State.counting (s : State) : Bool :=
  s.metro.on && match s.cond.phase with
    | .running => true
    | .tacetEntry _ => true
    | .resetEntry => true
    | _ => false

/-- This module runs bars and is not in fermata. -/
def State.live (s : State) : Bool := s.running && s.fermata.isNone

end Sys2Proof.Machine
end

