-- ==== Sys2Proof/Machine/DuetLink.lean ====
section
/-!
DEFINITION. Frames of the Duet link as this module makes them (R285, R287), and what slot 0 does to the link: the role exchange (R306),
the link going up (R290), SWAP_GO (R305), the leader's BAR frame and its bar lengthening (R116, R119).
-/
namespace Sys2Proof.Machine

/-- RCORR: a follower's r, saturated to 24 bits; otherwise 0 (Table 15-3). -/
def rcorr (s : State) : Nat :=
  if s.follower && s.metro.aligned then (clampInt s.metro.r (-8388607) 8388607 % 2 ^ 24).toNat else 0

/-- The body of a BAR or HEARTBEAT frame (Table 15-3). -/
def linkBody (s : State) : List Byte :=
  let i := s.duet.digIdx.toNat
  let b (x : Bool) (k : Nat) := if x then 2 ^ k else 0
  leBytes 2 s.aon.bar.toNat
    ++ [BitVec.ofNat 8 (stDivx s s.st + 16 * s.st), BitVec.ofNat 8 (s.boot.tempo.toNat + 16 * s.duet.epoch.toNat),
        BitVec.ofNat 8 (i + b s.duet.ready 3 + b s.leader 4)]
    ++ (List.range 4).map (fun k => (s.boot.digest[4 * i + k]?).getD 0) ++ leBytes 3 (rcorr s)

/-- Sending a link frame, 1 BAR or 2 HEARTBEAT: it carries the oldest acknowledgement due (R294), and DIGIDX advances (R287). -/
def sendLink (s : State) (type : BitVec 4) : State :=
  { s with duet := { s.duet with
      tx := some (frameOf s type 0 s.duet.acks.head? (linkBody s))
      acks := s.duet.acks.drop 1
      digIdx := s.duet.digIdx + 1 } }

/-- The two modules' divisors are equal, by the partner's latest frame (R116). -/
def divisorsEqual (s : State) : Bool := s.duet.pDivx.toNat = stDivx s s.st

/-- The limit of R116 on lengthening a bar. -/
def lengthLimit (bnom : Nat) : Int := (bnom * 45 / 1000 : Nat)

/-- The unreleased REC pairs in Q3 become records in Q2 (R306): the ring of messages without them, and the records' type, flags and
payload. -/
def takeRelays : List Msg → List Msg × List (Nat × Nat × List Byte)
  | a :: b :: r =>
    if a.type = 4 && b.type = 5 && !a.released && !b.released then
      let (q, l) := takeRelays r
      (q, (a.body[0].toNat % 16, a.body[1].toNat, a.body.toList.drop 2 ++ b.body.toList.take 10) :: l)
    else
      let (q, l) := takeRelays (b :: r)
      (a :: q, l)
  | q => (q, [])

/-- The exchange at the start of bar XBAR (R306, R119). The new leader's moved records have SRC 0, LEADER set and the bar and slot of the exchange,
and keep their other flags but DROP; a REC_B whose REC_A has been released already stays in Q3 (the model's choice, log entry 86). The new
follower's loop starts at once: the slot 0 before, its own as the leader, is its first reference, and it keeps the bar length that it ran as the
leader, so that the pair stays aligned (log entry 72); records of the partner that still wait are drops (log entry 36). -/
def exchangeRoles (s : State) (lastLen : Nat) : State :=
  let bnom := stBarLen s s.st
  let x := (lastLen : Int) - bnom
  let s := { s with
    duet := { s.duet with
      epoch := s.duet.epoch + 1, commit := none, goSent := none, held := false, handover := false, change := true }
    metro := { s.metro with aligned := true, next := none, x := x, r := 0, rRecv := 0, tlPrev := none } }
  if s.leader then
    let (q, l) := takeRelays s.duet.q3
    let s := { s with duet := { s.duet with q3 := q } }
    l.foldl (fun s (e : Nat × Nat × List Byte) => pushQ2 (makeRoom s) e.1 (e.2.1 % 16 + 16 + e.2.1 / 32 % 4 * 32) 0 e.2.2) s
  else
    let s := countDrop s s.duet.relayed.length
    { s with
      duet := { s.duet with relayed := [] }
      metro := { s.metro with
        tlPrev := some (s.metro.start - lastLen), next := if 0 ≤ x && x ≤ lengthLimit bnom then some lastLen else none } }

/-- The link goes up at epoch 0 with its counters and memory cleared (R290). -/
def goUp (s : State) : State :=
  { s with
    duet := { s.duet with
      link := .up, epoch := 0, txSeq := 0, flight := [], memory := [], halves := [], partner := [],
      held := false, goSent := none, commit := none, handover := false, change := true }
    metro := { s.metro with aligned := false, next := none, x := 0, r := 0, rRecv := 0, tlPrev := none } }

/-- The ROLE = 0 module enqueues one SWAP_GO when it holds a request, PARTNER is 1 and none has been sent at this epoch (R305). -/
def offerSwapGo (s : State) : State :=
  if s.duet.link = .up && !s.role && s.duet.held && s.partnerUp && s.duet.goSent.isNone && s.duet.commit.isNone then
    pushQ3 s 8 ([BitVec.ofNat 8 s.duet.epoch.toNat] ++ leBytes 2 (s.aon.bar + 1).toNat)
  else s

/-- The length of the bar that begins (R102, R116, R118): the leader adds x, an aligned follower runs the length of its loop, and every other
module b_nom. -/
def setBarLength (s : State) : State :=
  let bnom := stBarLen s s.st
  let m := s.metro
  if s.leader then
    let x := if divisorsEqual s then clampInt (m.x + m.rRecv.tdiv 2) 0 (lengthLimit bnom) else 0
    { s with metro := { m with x := x, next := none, len := (bnom + x).toNat } }
  else if s.follower && divisorsEqual s then
    if m.aligned then { s with metro := { m with len := m.next.getD bnom } } else { s with metro := { m with len := bnom, next := none } }
  else { s with metro := { m with len := bnom, next := none, aligned := false } }

/-- The window of a WAKE frame, bars WBAR + 1 to WBAR + HOLD, has passed in bar `bar` (R302). -/
def wakePassed (bar : BitVec 16) (w : BitVec 16 × BitVec 8) : Bool := w.2.toNat < (bar - w.1).toNat && (bar - w.1).toNat < 0x8000

/-- A partner's verdict that no bar from `bar` on can fuse: bar n takes that of bar n - 1 (R300). -/
def verdictPassed (bar : BitVec 16) (p : PartnerVerdict) : Bool := 0x8000 ≤ (p.bar + 1 - bar).toNat

/-- What slot 0 does to the link, the new state and bar number in force: what has passed is forgotten, then exchange, link-up, bar length,
SWAP_GO, BAR frame. -/
def duetSlotZero (s : State) (lastLen : Nat) : State :=
  let s := newStamp { s with duet := { s.duet with
    handover := false
    wakes := s.duet.wakes.filter fun w => !wakePassed s.aon.bar w
    partner := s.duet.partner.filter fun p => !verdictPassed s.aon.bar p } }
  let s := if s.duet.link = .up && s.duet.commit = some s.aon.bar then exchangeRoles s lastLen else s
  let s := if s.duet.link = .seeking && s.duet.ready && s.duet.partnerReady && !s.inject 13 then goUp s else s
  let s := offerSwapGo (setBarLength s)
  if s.leader then sendLink s 1 else s

end Sys2Proof.Machine
end

