-- ==== Sys2Proof/WellFormed.lean ====
section
/-!
DEFINITION. Well-formed commands: the operands have the shape of what the hardware delivers (a plane's black rows, a scan's chips, the data
bytes that a Flailo length announces). A command that is not well-formed is refused by name; every other command has a next state.
-/
namespace Sys2Proof

open Machine (planeWidth planeHeight)

/-- The data bytes of a Flailo command are as many as its length says (R324). -/
def FlailoHead.dataOk (h : FlailoHead) : Bool := h.data.length = h.len.toNat

/-- Four optically black rows of a plane (R126). -/
def blackShape (p : Plane) (black : List Code) : Bool := black.length = 4 * planeWidth p

/-- 8 or 16 drive chips and 2 listen chips, each of 16 lines (R244). -/
def scanShape (chips listen : List (List Int)) : Bool :=
  (chips.length = 8 || chips.length = 16) && listen.length = 2 && chips.all (fun c => c.length = 16) && listen.all fun c => c.length = 16

/-- The plane that a DARK_CAL's address names. -/
def FlailoHead.plane (h : FlailoHead) : Plane := if h.addr.getLsbD 0 then .h else .w

/-- 16 bars of the plane that a DARK_CAL's address names, each with all its rows and its black rows, and one response per column (R326). -/
def darkShape (h : FlailoHead) (frames : DarkFrames) (resp : List Nat) : Bool :=
  let p := h.plane
  blackShape p frames.seed && frames.bars.length = 16 && resp.length = planeWidth p
    && frames.bars.all fun b => b.1.length = planeHeight p && b.1.all (fun r => r.length = planeWidth p) && blackShape p b.2

/-- 64 scans of 128 nodes (R327). -/
def touchShape (scans : List (List Nat)) : Bool := scans.length = 64 && scans.all fun r => r.length = 128

/-- A command is well-formed. READ's length is that of its answer: it carries no data (log entry 17). -/
def Instr.wf (i : Instr) : Bool :=
  match i with
  | .imagerStepDone p x => blackShape p x.black
  | .scanComplete chips listen => scanShape chips listen.chips
  | .load h _ _ => h.dataOk
  | .verify h => h.dataOk
  | .darkCal h _ frames resp => h.dataOk && darkShape h frames resp
  | .touchCal h scans => h.dataOk && touchShape scans
  | .calWrite h _ _ => h.dataOk
  | .read h => h.data = []
  | .seal h => h.dataOk
  | .info h => h.dataOk
  | .flailoUnknownOpcode _ h => h.dataOk
  | _ => true

end Sys2Proof
end

