-- ==== Sys2Proof/Machine/Limiter.lean ====
section
/-!
DEFINITION. The load-slew limiter (R92 to R94) and the steps that move it: LIMITER_TICK, the LED interlock (R32, R33), the planes'
power-up (R126, R128) and VPIX (R31, R362).
-/
namespace Sys2Proof.Machine

/-- Declared peak current of a state in uA; Tacet and reset count as 0. -/
def peakUA (s : State) (st : Nat) : Int := 100 * (stPeak s st : Int)

/-- The safe point that VCORE stands at or has been lowered from (Table 04-2): the two safe points lie further apart than
over-scaling reaches. -/
def spNow (s : State) : Nat := if s.supply.vcore > 4 then 24 else 4

/-- VCORE's target from a safe point (R80): in an over-scaled slot 12.5 mV lower for each step of the RUBATO code, not below 0.500 V. -/
def scaledVcore (s : State) (base : Nat) : Nat :=
  if s.metro.overScaled then base - (s.codes.rubato.eff.toNat - 7) else base

/-- The Soli clock in MHz / 8 as the engine and the helpers get it: in an over-scaled slot at most the ceiling of Table 12-4 (R238). Clock
and VCORE move in one step, so no state shows them in an order that R238 forbids. -/
def soliClock (s : State) : Nat :=
  let k := s.codes.rubato.eff.toNat
  let ceiling := if k ≤ 9 then 300 else if k ≤ 12 then 250 else 200
  if s.metro.overScaled then min s.blocks.sclk (8 * ceiling) else s.blocks.sclk

/-- The planes that a state declares, in the order of an upward list. -/
def declared (s : State) (st : Nat) : List Plane := [Plane.w, Plane.h].filter (stPlane s st)

/-- The action list towards a state (R93, R94): planned from what is powered now, and for the planes from what has been declared or done,
since a plane that PRIV_N, the interlock or a shutdown holds off belongs to no transition. -/
def planActs (s : State) (st : Nat) (up : Bool) (planes : List Plane) : List Action :=
  let bank (b : Nat) := bitAt s.blocks.banks.toNat b
  let tgt (b : Nat) := bitAt (stBanks s st) b
  let cluster (n : Nat) := bitAt s.blocks.clusters.toNat n
  let t := 8 * stTclk s st
  let c := 8 * stSclk s st
  let on (b : Bool) (l : List Action) := if b then l else []
  if up then
    on (spNow s < safePoint st) [.vcore]
      ++ ((List.range 16).filter fun b => tgt b && !bank b).map .bank
      ++ on (stHeld s st && !s.blocks.held) [.held]
      ++ on (s.blocks.tclk < t) ((fromTo 1 8).map .tutti)
      ++ on (c ≠ 0) (((List.range 8).filter fun n => !cluster n).map .cluster)
      ++ on (s.blocks.sclk < c) ((fromTo 1 8).map .soli)
      ++ ((declared s st).filter fun p => !planes.contains p).map .plane
  else
    ([Plane.h, Plane.w].filter fun p => planes.contains p && !stPlane s st p).map .plane
      ++ on (c < s.blocks.sclk) ((fromTo 1 8).map .soli)
      ++ on (c = 0) (((List.range 8).reverse.filter cluster).map .cluster)
      ++ on (t < s.blocks.tclk) ((fromTo 1 8).map .tutti)
      ++ on (!stHeld s st && s.blocks.held) [.held]
      ++ ((List.range 16).reverse.filter fun b => bank b && !tgt b).map .bank
      ++ on (safePoint st < spNow s) [.vcore]

/-- A transition is upward when the new peak is higher or a plane is newly powered (R92). -/
def isUpward (s : State) (old new : Nat) : Bool :=
  peakUA s old < peakUA s new || [Plane.w, Plane.h].any fun p => stPlane s new p && !stPlane s old p

/-- A ramp starts: allow = i_old, k = 0 (R94). -/
def startRamp (s : State) (old : Nat) (new : PState) (up : Bool) : State :=
  { s with limiter :=
      { on := true, armed := false, up := up, iOld := peakUA s old, iNew := peakUA s new.num, allow := peakUA s old, k := 0,
        acts := planActs s new.num up (declared s old), busy := none, tried := false, planes := declared s old, paused := false
        dst := new } }

/-- A new state is chosen while a ramp runs: the allowance stays, the list is planned anew from what has been done (R93). -/
def replanRamp (s : State) (new : PState) : State :=
  let l := s.limiter
  let up := l.allow < peakUA s new.num || (declared s new.num).any fun p => !l.planes.contains p
  { s with limiter :=
      { l with armed := false, up := up, iOld := l.allow, iNew := peakUA s new.num, k := 0, acts := planActs s new.num up l.planes, dst := new } }

/-- The ramp of a state chosen at slot 444, at slot 445 or at the end of the fermata that came before it (R92, R93, R96): a running ramp is
planned anew, an upward one starts; a downward one starts with slot 0 (log entry 61). -/
def takeChoice (s : State) (new : PState) : State :=
  if !s.limiter.armed then s
  else if s.limiter.on then replanRamp s new
  else if isUpward s s.st new.num then startRamp s s.st new true
  else { s with limiter := { s.limiter with armed := false } }

/-- One plane is shut down; with the last one the VPIX LDO goes off, as step 6 of Table 04-6 does. -/
def planeDown (s : State) (p : Plane) : State :=
  let s := s.setPlane p (s.plane p).unpower
  if s.planeW.power = .off && s.planeH.power = .off then vpixOff s else s

/-- Gating a bank clears its flags and loses its contents (R83, R140). -/
def gateBanks (s : State) (keep : Nat) : State :=
  { s with ram := s.ram.clear fun w => 8 * w < heldBase && !bitAt keep (bankOf (8 * w)) }

/-- One of eight equal steps of a clock in MHz / 8, rounded as R174 rounds. -/
def clockStep (now target k : Nat) : Nat := ((now : Int) + roundDiv ((target : Int) - now) (9 - k)).toNat

/-- A held injection at code 10 or 11 lets no power-up of a plane succeed (Table 17-3): the detector's response acts and it trips, once (log
entry 67). -/
def refusePower (s : State) : State :=
  if s.inject 10 then
    let s := if s.priv.byLed then s else trip s 10 true 0
    { s with priv := { s.priv with byLed := true } }
  else
    let s := if s.priv.byPath then s else trip s 11 true 0
    { s with priv := { s.priv with byPath := true } }

/-- Performing one action of the list. -/
def doAction (s : State) (a : Action) : State :=
  let l := s.limiter
  let st := l.dst.num
  let b := s.blocks
  match a with
  | .vcore => { s with supply := { s.supply with vcore := scaledVcore s (safePoint st) } }
  | .bank n =>
    if l.up then { s with blocks := { b with banks := b.banks ||| BitVec.ofNat 16 (2 ^ n) } }
    else { s with
      blocks := { b with banks := b.banks &&& ~~~(BitVec.ofNat 16 (2 ^ n)) }
      ram := s.ram.clear fun w => 8 * w < heldBase && bankOf (8 * w) = n }
  | .held => { s with blocks := { b with held := l.up } }
  | .tutti k => { s with blocks := { b with tclk := clockStep b.tclk (8 * stTclk s st) k } }
  | .soli k => { s with blocks := { b with sclk := clockStep b.sclk (8 * stSclk s st) k } }
  | .cluster n =>
    let m := BitVec.ofNat 8 (2 ^ n)
    { s with blocks := { b with clusters := if l.up then b.clusters ||| m else b.clusters &&& ~~~m } }
  | .plane p =>
    if l.up then
      let s := { s with limiter := { l with planes := l.planes ++ [p] } }
      if s.priv.held then { s with priv := { s.priv with byPriv := s.priv.byPriv || s.priv.asserted } }
      else if s.inject 10 || s.inject 11 then refusePower s
      else
        let s := s.setPlane p { s.plane p with power := .starting }
        { s with vpix := { s.vpix with sink := true }, limiter := { s.limiter with busy := some p, tried := false } }
    else planeDown { s with limiter := { l with planes := l.planes.filter (· ≠ p) } } p

/-- The allowance after one tick (R94). -/
def Limiter.move (l : Limiter) (slew : Option Int) : Int :=
  let zero := if l.up then l.iNew ≤ l.iOld else l.iOld ≤ l.iNew
  if zero then l.iOld
  else match slew with
    | none => l.iNew
    | some d => if l.iNew > l.allow then min l.iNew (l.allow + d) else max l.iNew (l.allow - d)

/-- The threshold of action `k` of `n` is reached. -/
def Limiter.reached (l : Limiter) (n : Nat) : Bool :=
  let zero := if l.up then l.iNew ≤ l.iOld else l.iOld ≤ l.iNew
  let lhs := l.allow * n
  let rhs := l.iOld * n + (l.iNew - l.iOld) * (l.k + 1)
  zero || (if l.up then rhs ≤ lhs else lhs ≤ rhs)

/-- The actions whose thresholds are reached, in order; an action never overlaps the next one. `n` counts the whole list. -/
def runActs : List Action → Nat → State → State
  | [], _, s => s
  | a :: r, n, s =>
    if s.limiter.busy.isSome || !s.limiter.reached n then s
    else
      let t := doAction s a
      runActs r n { t with limiter := { t.limiter with k := s.limiter.k + 1, acts := r } }

/-- Tacet entry passes from step 5 to step 4 when its ramp is done: the gated domains are off (Table 04-6). -/
def finishStep5 (s : State) : State :=
  { s with
    blocks := Blocks.off
    ram := Ram.empty
    cond := { s.cond with phase := .tacetEntry 4 } }

/-- Tacet entry's step 5 (Table 04-6): operations in flight are abandoned, and what is powered ramps down; a ramp that was running goes on
from its allowance. The planes have been shut down in step 6. -/
def beginStep5 (s : State) : State :=
  let s := abandonOps s
  let l := s.limiter
  let i := if l.on then l.allow else peakUA s s.st
  { s with
    limiter :=
      { on := true, armed := false, up := false, iOld := i, iNew := 0, allow := i, k := 0, acts := planActs s 0 false [], busy := none,
        tried := false, planes := [], paused := false, dst := .tacet }
    cond := { s.cond with phase := .tacetEntry 5 } }

/-- LIMITER_TICK (R94). -/
def execLimiterTick (s : State) : Host.Outcome State Fault Refusal :=
  let l := s.limiter
  if !l.on || l.paused then .next s
  else
    let s := { s with limiter := { l with allow := l.move (slewStep s.boot.slew) } }
    let s := runActs l.acts (l.k + l.acts.length) s
    if s.limiter.acts = [] && s.limiter.busy.isNone then
      let s := { s with limiter := { s.limiter with on := false } }
      .next (if s.cond.phase = .tacetEntry 5 then finishStep5 s else s)
    else .next s

/-! ### The slot-0 work of a transition (R94) -/

/-- What a transition changes against its ramp's direction, done before the new schedule's first entry, the lowering of VCORE among it; in either
direction a bank that the new state does not declare loses its contents. -/
def slotZeroWork (s : State) (st : Nat) (up : Bool) : State :=
  let s := gateBanks s (stBanks s st)
  let b := s.blocks
  let m := BitVec.ofNat 16 (stBanks s st)
  let t := 8 * stTclk s st
  let c := 8 * stSclk s st
  if up then
    let s := { s with
      blocks :=
        { banks := b.banks &&& m, held := b.held && stHeld s st, tclk := min b.tclk t,
          clusters := if c = 0 then 0 else b.clusters, sclk := min b.sclk c }
      supply := { s.supply with vcore := min s.supply.vcore (safePoint st) } }
    let s := { s with limiter := { s.limiter with planes := s.limiter.planes.filter (stPlane s st) } }
    [Plane.w, Plane.h].foldl (fun s p => if stPlane s st p || (s.plane p).power = .off then s else planeDown s p) s
  else
    { s with
      blocks := { banks := b.banks ||| m, held := b.held || stHeld s st, tclk := max b.tclk t,
                  clusters := if c = 0 then b.clusters else 255, sclk := max b.sclk c }
      supply := { s.supply with vcore := max s.supply.vcore (safePoint st) } }

/-! ### LED interlock, VPIX, planes -/

/-- A plane's power-up sequence waits for the interlock. -/
def planesStarting (s : State) : Bool := s.planeW.power = .starting || s.planeH.power = .starting

/-- LED_INTERLOCK_MET: both conditions of R32 have held for 200 us while a power-up sequence waits; the VPIX LDO is enabled, and with the
series switch closed VPIX rises above 0.2 V (log entry 68). A held injection at code 10 or 11 lets no restart succeed (Table 17-3). -/
def execLedInterlockMet (s : State) : Host.Outcome State Fault Refusal :=
  if s.vpix.sink && planesStarting s && !s.inject 10 && !s.inject 11 && !s.priv.held then
    .next { s with vpix := { s.vpix with ldo := true, above := s.vpix.above || s.vpix.closed } }
  else .next s

/-- LED_INTERLOCK_OPEN: a condition fails for more than 10 us while the LDO is enabled and VPIX is at or above 0.2 V (R33):
detector 10 trips, the LDO goes off, readout stops at the next slot boundary. -/
def execLedInterlockOpen (current forward : Bool) (s : State) : Host.Outcome State Fault Refusal :=
  if s.vpix.ldo && s.vpix.above && (current || forward) then
    let d := (if current then 1 else 0) + (if forward then 2 else 0)
    let s := vpixOff (trip s 10 false (BitVec.ofNat 32 d))
    .next { s with priv := { s.priv with byLed := true, stop := true } }
  else .next s

/-- VPIX_DISCHARGED: VPIX has fallen below 0.2 V through the clamp or the discharge switch; the sink is released (R31), and no storage node
or photodiode holds charge (R134). Step 6 of Tacet entry ends with it. -/
def execVpixDischarged (s : State) : Host.Outcome State Fault Refusal :=
  if s.vpix.above && (!s.vpix.ldo || !s.vpix.closed) then
    let s := { s with
      vpix := { s.vpix with above := false, sink := false }
      planeW := { s.planeW with stored := false, expStart := none }
      planeH := { s.planeH with stored := false, expStart := none } }
    .next (if s.cond.phase = .tacetEntry 6 then beginStep5 s else s)
  else .next s

/-- The CAM_LED current in mA (R31): the score's LED_MA while the sink is on. -/
def ledCurrent (s : State) : Nat := if s.vpix.sink then ledMa s else 0

/-- B of R128: the mean of the black rows in 1/16 LSB. -/
def blackMean (sum : Nat) (p : Plane) : Nat := (roundDiv (16 * sum : Nat) (4 * planeWidth p)).toNat

/-- The exposure of a plane for a slot 0 at which state `st` is in force (R125): the one that slot 444 of the bar before the last laid down, else the
exposure word of `st`, with a request of 0 under AUTO. R125 lays down none for a plane that the state chosen two bars before does not power: the
word of the state in force, and the request of 0, are the model's choice (log entry 88). -/
def exposureFor (s : State) (p : Plane) (st : Nat) : Exposure :=
  ((s.plane p).next).getD
    (let w := stExposure s st p
     if bitAt w 14 then ⟨field w 16 12, 0⟩ else ⟨field w 0 12, field w 12 2⟩)

/-- The exposure that a plane transfers at a slot 0 (log entry 88). -/
def exposureOf (s : State) (p : Plane) : Exposure := exposureFor s p s.st

/-- The state that the next slot 0 puts in force, as far as the bar has chosen one. -/
def State.upcoming (s : State) : Nat :=
  match s.cond.next with
  | some .tacet => s.st
  | some n => n.num
  | none => s.st

/-- The cycle of the bar at which a plane's exposure for the next slot 0 starts (R122). Where no slot 444 has laid the exposure down, E is that of
the state which the next slot 0 puts in force, as the transfer takes it; before slot 444 chooses, of the state in force (the model's choice, log
entry 88). -/
def exposureCycle (s : State) (p : Plane) : Nat := (3584 - (exposureFor s p s.upcoming).exp) * s.metro.len / 3584

/-- The first cycle of slot `k` of the bar (R102). -/
def slotCycle (s : State) (k : Nat) : Nat := k * s.metro.len / 448

/-- IMAGER_STEP_DONE: a plane's power-up ends in the running slot, at a cycle of the bar; the black rows are converted once and seed
B_eff (R126, R128). An exposure that should have started before that cycle starts there (R126); a hold lengthens slot 447 (R117). -/
def execImagerStepDone (p : Plane) (e : PowerUpEnd) (s : State) : Host.Outcome State Fault Refusal :=
  if !(Instr.imagerStepDone p e).wf then .refused (.illFormed "IMAGER_STEP_DONE")
  else
    let x := s.plane p
    if x.power = .starting && s.vpix.ldo && s.vpix.closed then
      let b := blackMean ((e.black.map (·.toNat)).sum) p
      let start := max (slotCycle s s.metro.slot) (if s.metro.hold then e.cycle else min e.cycle (slotCycle s (s.metro.slot + 1) - 1))
      let late := exposureCycle s p ≤ start
      let s := s.setPlane p { x with power := .on, black := b, blackNext := none, expStart := if late then some start else none }
      .next { s with limiter := { s.limiter with busy := if s.limiter.busy = some p then none else s.limiter.busy } }
    else .next s

/-- PRIV_N_FALL: the pad passes below 0.40 V; the series switch opens and the clamp closes, by die wiring alone (R9, R35, R135, R345). -/
def execPrivNFall (s : State) : Host.Outcome State Fault Refusal :=
  .next { s with vpix := { s.vpix with closed := false } }

/-- PRIV_N_RISE: the pad passes above 1.00 V; the series switch closes and the clamp opens (R345). With the LDO still on, VPIX rises again and
the sink with it (R31). -/
def execPrivNRise (s : State) : Host.Outcome State Fault Refusal :=
  .next { s with vpix := { s.vpix with closed := true, above := s.vpix.above || s.vpix.ldo, sink := s.vpix.sink || s.vpix.ldo } }

/-- A ramp has still to power the plane, or is powering it. -/
def Limiter.holdsPlane (l : Limiter) (p : Plane) : Bool := l.on && (l.acts.contains (.plane p) || l.busy = some p)

/-- PLANE_RESTART: at a bar start at which nothing holds the planes off any more, the interlock begins for each plane that the state
powers, that is off and that no ramp powers (R37, R100, R335). -/
def execPlaneRestart (s : State) : Host.Outcome State Fault Refusal :=
  if s.metro.due.contains .planeRestart then
    let s := { s with metro := { s.metro with due := s.metro.due.filter (· ≠ .planeRestart) } }
    if s.inject 10 || s.inject 11 then .next (refusePower s)
    else
      let go (s : State) (p : Plane) :=
        if stPlane s s.st p && (s.plane p).power = .off && !s.limiter.holdsPlane p then s.setPlane p { s.plane p with power := .starting }
        else s
      let s := go (go s .w) .h
      .next { s with vpix := { s.vpix with sink := true } }
  else .next s

end Sys2Proof.Machine
end

