-- ==== Sys2Proof/Machine/ScoreCheck.lean ====
section
/-!
DEFINITION. When an image is malformed: the header (R310, R311), the directory (R312), and each section's content (R313 to R321 with
R108, R123, R144, R160, R176, R193, R207, R232, R242, R257 and R301). The order in which broken rules are found is log entry 10.
-/
namespace Sys2Proof.Machine

/-- Every byte of a range of the body is 0. -/
def zeroBytes (s : State) (off len : Nat) : Bool := (bodyBytes s off len).all (· = 0)

/-! ### Header and digest -/

/-- The first 8 bytes of the selected OTP slot have never been programmed (R311). -/
def slotEmpty (s : State) : Bool := s.sel ≥ 6 && !s.nvm.marks.contains (imageBase s.sel / 8)

def headerOk (s : State) : Bool :=
  let b := imageBase s.sel
  let len := bodyLen s
  s.nvm.u b 4 = 0x43534B50 && s.nvm.u (b + 4) 2 = 1 && s.nvm.u (b + 6) 2 = 0 && s.nvm.u (b + 12) 4 = 0
    && (s.nvm.bytes (b + 48) 16).all (· = 0) && len % 8 = 0 && 128 ≤ len && len ≤ imageCapacity s.sel - 64

/-- The header digest of the image that a SEL value selects. -/
def headerDigest (n : Nvm) (sel : Nat) : List Byte := n.bytes (imageBase sel + 16) 32

def digestOk (s : State) : Bool := sha256 (bodyBytes s 0 (bodyLen s)) = headerDigest s.nvm s.sel

/-! ### Directory (R312, Table 16-2) -/

def secRequired (k : Nat) : Bool := [1, 2, 10, 11].contains k

/-- The length rule of a section. -/
def secLenOk (s : State) (k : Nat) : Bool :=
  let l := secLen s k
  match k with
  | 1 => l = 8 + 4 * nRule s
  | 3 => l % 64 = 0
  | 4 => l % 32 = 0
  | 5 => l % 4 = 0
  | 9 => l = 0 || l = 8 + 4 * secU s 9 6 1
  | 10 => l = 208 + 8 * nEff s
  | _ => true

def entryOk (s : State) (k : Nat) : Bool :=
  if k = 0 || k ≥ 12 then secOff s k = 0 && secLen s k = 0
  else
    let o := secOff s k
    let l := secLen s k
    o % 8 = 0 && (l ≠ 0 || !secRequired k)
      && (l = 0 || (o ≥ 128 && o + l ≤ bodyLen s && (List.range k).all fun j =>
            secLen s j = 0 || o + l ≤ secOff s j || secOff s j + secLen s j ≤ o))
      && secLenOk s k

/-! ### State table (R313) -/

def ruleOk (s : State) (r : Nat) : Bool :=
  !bitAt r 14 && field r 28 4 = 0 && field r 4 2 ≠ 3 && field r 15 2 ≠ 3 && field r 17 11 ≠ 0 && field r 2 2 ≤ maxState s

def stateTableOk (s : State) : Bool :=
  let i := initState s
  i ≠ 0 && i ≤ maxState s && field (secU s 1 0 1) 2 6 = 0 && nRule s ≤ 32 && zeroBytes s (secOff s 1 + 2) 6
    && (List.range (nRule s)).all fun k => ruleOk s (stateRule s k)

/-! ### Schedules (R108, R315) -/

def usedStates (s : State) : List Nat := [1, 2, 3].filter (stUsed s)

def schedWord (s : State) (st i : Nat) : Nat := secU s 2 (schedOff s st + 4 * i) 4

def schedEntryOk (s : State) (w : Nat) : Bool :=
  let arg := field w 16 16
  field w 0 9 ≤ 443 && field w 12 4 = 0 &&
    match field w 9 3 with
    | 0 => field arg 7 9 ≠ 0
    | 1 => arg < nDesc s
    | 2 => arg < nRec s
    | 3 => arg ≤ 1
    | 4 => arg ≤ 1
    | _ => false

/-- In ascending order, and at most 64 in one slot: an entry's 64th successor lies in a later slot. -/
def slotsOk (l : List Nat) : Bool :=
  (List.zip l (l.drop 1)).all (fun p => p.1 ≤ p.2) && (List.zip l (l.drop 64)).all fun p => p.1 ≠ p.2

def schedOk (s : State) (st : Nat) : Bool :=
  let n := schedCount s st
  secU s 2 (8 * (st - 1) + 6) 2 = 0 && n ≤ 4096 && schedOff s st + 4 * n ≤ secLen s 2 &&
    let ws := (List.range n).map (schedWord s st)
    ws.all (schedEntryOk s) && slotsOk (ws.map fun w => field w 0 9)

def schedulesOk (s : State) : Bool := secLen s 2 ≥ 24 && (usedStates s).all (schedOk s)

/-- The slots and states in which used states launch an operation: `kind` 1 a descriptor, 2 a launch record. -/
def launches (s : State) (kind index : Nat) : List (Nat × Nat) :=
  (usedStates s).flatMap fun st =>
    ((List.range (schedCount s st)).map (schedEntry s st)).filterMap fun e =>
      if e.kind = kind && e.arg.toNat = index then some (st, e.slot) else none

/-! ### Operations (R144, R160, R176, R193, R207) -/

def syncOk (s : State) (off : Nat) (ls : List (Nat × Nat)) : Bool :=
  let d := (syncAt s off).deadline
  field (bodyU s off 4) 24 8 = 0 && field (bodyU s (off + 4) 4) 24 8 = 0 && field (bodyU s (off + 10) 2) 9 7 = 0
    && 1 ≤ d && d ≤ 448 && ls.all fun l => l.2 < d

/-- A Tutti descriptor's fields (Tables 08-1 to 08-4). -/
structure Desc where
  op : Nat
  wfmt : Nat
  src : Nat
  dst : Nat
  cmp : Bool
  cbg : Nat
  kh : Nat
  kw : Nat
  rlim : Nat
  plane : Bool
  psumIn : Bool
  psumOut : Bool
  cmpIn : Bool
  inBase : Nat
  outBase : Nat
  wOff : Nat
  qOff : Nat
  iw : Nat
  ih : Nat
  ic : Nat
  ow : Nat
  oh : Nat
  oc : Nat
  oy0 : Nat
  oyn : Nat
  groups : Nat
  sx : Nat
  sy : Nat
  dx : Nat
  dy : Nat
  pl : Nat
  pr : Nat
  pt : Nat
  pb : Nat
  izp : Nat
  ozp : Nat
  clo : Nat
  chi : Nat
  woutBase : Nat
  winBase : Nat
  woutFirst : Nat
  woutN : Nat
  winFirst : Nat
  winN : Nat
deriving DecidableEq, Repr

def descAt (s : State) (i : Nat) : Desc :=
  let o := descOff s i
  let w (k : Nat) := bodyU s (o + k) 4
  let c := w 12
  let ind := w 32
  let outd := w 36
  let rows := w 40
  let g := w 44
  let z := w 48
  let l := w 60
  { op := field c 0 3, wfmt := field c 3 2, src := field c 5 2, dst := field c 7 2, cmp := bitAt c 9, cbg := field c 10 2,
    kh := field c 12 3, kw := field c 15 3, rlim := field c 18 4, plane := bitAt c 22, psumIn := bitAt c 23,
    psumOut := bitAt c 24, cmpIn := bitAt c 25, inBase := w 16, outBase := w 20, wOff := w 24, qOff := w 28,
    iw := field ind 0 10, ih := field ind 10 10, ic := field ind 20 10 + 1, ow := field outd 0 10, oh := field outd 10 10,
    oc := field outd 20 10 + 1, oy0 := field rows 0 10, oyn := field rows 10 10 + 1, groups := field rows 20 10 + 1,
    sx := field g 0 4, sy := field g 4 4, dx := field g 8 4, dy := field g 12 4, pl := field g 16 4, pr := field g 20 4,
    pt := field g 24 4, pb := field g 28 4, izp := field z 0 8, ozp := field z 8 8, clo := field z 16 8, chi := field z 24 8,
    woutBase := w 52, winBase := w 56, woutFirst := field l 0 10, woutN := field l 10 4, winFirst := field l 14 10,
    winN := field l 24 4 }

/-- The bound of R160 on an output size: padded input, dilated window, stride. -/
def sizeOk (out inp p0 p1 dil k stride : Nat) : Bool :=
  dil * (k - 1) + 1 ≤ inp + p0 + p1 && out ≤ (inp + p0 + p1 - dil * (k - 1) - 1) / stride + 1

/-- How many of the input lines 0 to `n` - 1 the outputs `o0` to `o0 + on` - 1 read: those of their windows and those over which the stride
moves from one window to the next; with `whole`, also those up to the edge where fewer lines than a stride remain behind them, as columns of
rows that are read whole (R29; its corner case and the worked bar of chapter 5, 9 rows of 320 pixels for each descriptor, count so, log
entry 63). -/
def linesRead (n o0 on stride pad dil k : Nat) (whole : Bool) : Nat :=
  let within (y : Nat) : Bool := o0 ≤ y / stride && y / stride < o0 + on
  let hit := (List.range n).filter fun y => within (y + pad) || (List.range k).any fun j =>
    j * dil ≤ y + pad && (y + pad - j * dil) % stride = 0 && within (y + pad - j * dil)
  let behind := n - 1 - hit.getLastD 0
  if hit = [] then 0 else hit.length + (if whole && behind < stride then behind else 0)

/-- The pixels that a stage-0 descriptor reads, against four times the elements it writes (R29). -/
def reductionOk (d : Desc) : Bool :=
  linesRead d.ih d.oy0 d.oyn d.sy d.pt d.dy d.kh false * linesRead d.iw 0 d.ow d.sx d.pl d.dx d.kw true ≥ 4 * (d.oyn * d.ow * d.oc)

def staveBase (plane : Bool) : Nat := if plane then staveBaseH else staveBaseW

def planeOf (b : Bool) : Plane := if b then .h else .w

/-- Dimensions of a plane at a state's binning. -/
def binnedDims (s : State) (st : Nat) (p : Plane) : Nat × Nat :=
  let n := binFactor (stBin s st p)
  (planeWidth p / n, planeHeight p / n)

def stage0Ok (s : State) (d : Desc) (ls : List (Nat × Nat)) : Bool :=
  d.ic = 1 && d.groups = 1 && d.inBase = staveBase d.plane && d.rlim = 0 && !d.psumIn && !d.psumOut && !d.cmpIn
    && d.winN = 0 && d.woutN = 0 && reductionOk d
    && ls.all fun l => stPlane s l.1 (planeOf d.plane) && binnedDims s l.1 (planeOf d.plane) = (d.iw, d.ih)

/-- The shift-register block of R175, as R176 checks it. -/
def shiftBlockOk (s : State) (d : Desc) : Bool :=
  let h := bodyU s d.qOff 4
  field h 0 11 + 1 = d.oc && field h 11 5 = 0 && field h 22 10 = 0
    && (List.range d.oc).all fun c => field (bodyU s (d.qOff + 8 + 4 * c) 4) 5 11 = 0

def descOk (s : State) (i : Nat) : Bool :=
  let o := descOff s i
  let d := descAt s i
  let ls := launches s 1 i
  syncOk s o ls
    && field (bodyU s (o + 12) 4) 26 6 = 0 && field (bodyU s (o + 32) 4) 30 2 = 0 && field (bodyU s (o + 36) 4) 30 2 = 0
    && field (bodyU s (o + 40) 4) 30 2 = 0 && field (bodyU s (o + 60) 4) 28 4 = 0
    && d.op ≤ 4 && d.src ≠ 3 && (d.dst = 1 || d.dst = 2) && d.cbg ≠ 3 && d.kh ≠ 0 && d.kw ≠ 0
    && d.sx ≠ 0 && d.sy ≠ 0 && d.dx ≠ 0 && d.dy ≠ 0 && d.iw ≠ 0 && d.ih ≠ 0 && d.ow ≠ 0 && d.oh ≠ 0
    && d.woutN ≤ 8 && d.winN ≤ 8 && (d.src = 0 || !d.plane)
    && sizeOk d.ow d.iw d.pl d.pr d.dx d.kw d.sx && sizeOk d.oh d.ih d.pt d.pb d.dy d.kh d.sy
    && d.oy0 + d.oyn ≤ d.oh
    && (match d.op with
        | 1 => d.ic % d.groups = 0 && d.oc % d.groups = 0
        | 2 => d.ic = d.oc && d.oc = d.groups
        | _ => d.groups = 1)
    && (d.op < 3 || (d.oc = d.ic && d.wfmt = 0))
    && (d.op ≠ 4 || [1, 2, 4, 8, 16, 32].contains (d.kh * d.kw))
    && (!d.cmp || d.dst = 2) && (!d.cmpIn || d.src = 2)
    && ((d.woutN = 0 && d.winN = 0) || (d.op = 0 && !d.psumIn && !d.psumOut))
    && (d.woutN = 0 || d.woutFirst + d.woutN ≤ d.oc) && (d.winN = 0 || d.winFirst + d.winN ≤ d.ic)
    && !(d.psumOut && (d.cmp || d.op ≥ 3))
    && (d.src ≠ 0 || stage0Ok s d ls)
    && d.clo ≤ d.chi && (d.op ≥ 3 || d.psumOut || shiftBlockOk s d)

/-- KIND of a launch record. -/
def recKind (s : State) (i : Nat) : Nat := field (bodyU s (recOff s i + 12) 4) 0 2

/-- The rules of R193 and R207 on a launch record. That an IW or IH of 0 in a crop record, outside the 1 to 1 023 of Table 11-1, makes the image
malformed is the model's reading (log entry 51). -/
def recOk (s : State) (i : Nat) : Bool :=
  let o := recOff s i
  let w (k : Nat) := bodyU s (o + k) 4
  let c := w 12
  syncOk s o (launches s 2 i) &&
    match recKind s i with
    | 0 => field c 11 21 = 0 && w 16 % 4 = 0 && field (w 20) 16 16 = 0 && field (w 20) 0 16 ≠ 0
        && w 16 + 4 * field (w 20) 0 16 ≤ bodyLen s
    | 1 => field c 2 9 = 0 && (field c 11 2 = 1 || field c 11 2 = 2) && field c 25 7 = 0
        && w 16 % 8 = 0 && w 20 % 8 = 0 && w 24 % 8 = 0
        && field (w 28) 0 10 ≠ 0 && field (w 28) 10 10 ≠ 0 && field (w 28) 30 2 = 0
    | 2 => field c 2 9 = 0 && field c 25 7 ≤ 64 && w 16 % 8 = 0 && w 20 % 8 = 0 && field (w 28) 13 19 = 0
    | _ => field c 2 5 = 0 && field c 26 6 = 0 && w 16 % 8 = 0 && w 24 % 8 = 0 && field (w 28) 25 7 = 0

/-! ### Fusion (R301, R320) -/

def fusionOk (s : State) : Bool :=
  secLen s 9 = 0 ||
    ((List.range 6).all (fun k => secU s 9 k 1 ≤ 31) && secU s 9 6 1 ≤ 32 && secU s 9 7 1 = 0
      && (List.range (secU s 9 6 1)).all fun k =>
          let r := secU s 9 (8 + 4 * k) 4
          field r 13 3 ≠ 7 && field r 16 16 = 0)

/-! ### Verdict map (R316, R318, R257) -/

def inRam (a : Nat) : Bool := sramBase ≤ a && a < heldEnd

/-- A plan entry (Table 16-6). -/
def planOk (e : Nat) : Bool :=
  let ty := field e 0 4
  if ty = 0 then e = 0
  else if ty > 6 || field e 4 8 = 0 then false
  else if ty < 6 then field e 12 4 = 0 && field e 22 42 = 0
  else if bitAt e 12 then field e 13 51 = 0
  else
    let nl := field e 13 3
    nl ≤ 6 && (List.range 6).all fun k =>
      let l := field e (16 + 8 * k) 8
      if k < nl then l < 64 else l = 0

def verdictBlockOk (s : State) (st : Nat) : Bool :=
  [0, 2, 3, 4, 5].all (fun k => !bitAt (verdictU s st k 1) 6) && verdictU s st 6 10 = 0
    && (List.range 6).all fun i => planOk (planEntry s st i)

def effectOk (s : State) (e : Nat) : Bool :=
  !(effectU s e 2 1 = 0 && effectU s e 4 2 = 0) && effectU s e 0 1 ≤ 240 && field (effectU s e 7 1) 1 7 = 0

def verdictMapOk (s : State) : Bool :=
  vTgt s ≠ 0 && vvAddr s % 8 = 0 && inRam (vvAddr s) && !bitAt (secU s 10 4 1) 7 && field (secU s 10 7 1) 3 5 = 0 && pHold s ≤ 240
    && secU s 10 9 7 = 0 && (usedStates s).all (verdictBlockOk s) && (fromTo 1 (nEff s)).all (effectOk s)

/-! ### Declared limits (R321, R123, R242, R232) -/

def exposureOk (w : Nat) (powered : Bool) : Bool :=
  if !powered then w = 0
  else
    let e := field w 0 12
    1 ≤ e && e ≤ 3576 && !bitAt w 15 && field w 28 4 = 0 &&
      (if bitAt w 14 then 1 ≤ field w 16 12 && field w 16 12 ≤ e else field w 16 12 = 0)

/-- Two keys share a node. -/
def keysMeet (a b : Nat) : Bool :=
  field a 0 3 ≤ field b 3 3 && field b 0 3 ≤ field a 3 3 && field a 6 4 ≤ field b 10 4 && field b 6 4 ≤ field a 10 4

def touchOk (s : State) (st : Nat) : Bool :=
  let w := stTouch s st 0 4
  let rate := field w 0 8
  let keys := (List.range 8).map fun q => stTouch s st (8 + 4 * q) 4
  field w 10 22 = 0 && 20 ≤ rate && rate ≤ 240 && (st ≠ 1 || rate = 20) && field (stTouch s st 4 4) 24 8 = 0
    && keys.all (fun k => field k 15 17 = 0 && (!bitAt k 14 || (field k 0 3 ≤ field k 3 3 && field k 6 4 ≤ field k 10 4)))
    && (List.range 8).all fun i => (List.range i).all fun j =>
        let a := keys.getD i 0
        let b := keys.getD j 0
        !bitAt a 14 || !bitAt b 14 || !keysMeet a b

/-- Bytes of a C16 or C32 tensor (Table 08-5). -/
def tensorSize (layout h w c : Nat) : Nat :=
  if layout = 1 then (c + 15) / 16 * h * w * 16 else (c + 31) / 32 * h * w * 32

/-- A byte range lies wholly in tensor SRAM banks of a bank mask. -/
def inBanks (mask a len : Nat) : Bool :=
  len = 0 || (sramBase ≤ a && a + len ≤ heldBase && (fromTo (bankOf a) (bankOf (a + len - 1))).all fun b => bitAt mask b)

def rangesMeet (a la b lb : Nat) : Bool := a < b + lb && b < a + la && la ≠ 0 && lb ≠ 0

/-- A number in the Reprise block of a state (Tables 12-2, 12-3). -/
def rprU (s : State) (st off len : Nat) : Nat := secU s 11 (stReprise s st + off) len

def rprDeps (s : State) (st : Nat) : Nat := field (rprU s st 10 1) 0 7

/-- Base, layout, height, width and channels of the watched tensor. -/
def watched (s : State) (st : Nat) : Nat × Nat × Nat × Nat × Nat :=
  let w := rprU s st 4 4
  (rprU s st 0 4, field w 30 2, field w 10 10, field w 0 10, field w 20 10 + 1)

def outSize (d : Desc) : Nat :=
  if d.cmp then (d.oc + 31) / 32 * d.oh * d.ow * 40 else tensorSize d.dst d.oh d.ow d.oc

/-- The rules of R232 on a dependent. A wide side tensor counts with the whole 16-byte slot of each position, also of the last one and with WOUT_N
below 8 (the model's choice, log entry 87). -/
def depOk (s : State) (st i : Nat) : Bool :=
  let e (o n : Nat) := rprU s st (16 + 8 * i + o) n
  let x := e 0 2
  let d := descAt s x
  let banks := rprU s st 8 2
  let w := watched s st
  let wlen := tensorSize w.2.1 w.2.2.1 w.2.2.2.1 w.2.2.2.2
  e 3 1 = 0 && field (e 2 1) 0 4 ≠ 0 && field (e 2 1) 4 4 ≠ 0
    && signed 8 (e 4 1) ≤ signed 8 (e 5 1) && signed 8 (e 6 1) ≤ signed 8 (e 7 1)
    && x < nDesc s && (List.range i).all (fun j => rprU s st (16 + 8 * j) 2 ≠ x)
    && d.src ≠ 0 && !d.psumIn && !d.psumOut
    && inBanks banks d.outBase (outSize d) && !rangesMeet d.outBase (outSize d) w.1 wlen
    && (d.woutN = 0 || (inBanks banks d.woutBase (d.oh * d.ow * 16) && !rangesMeet d.woutBase (d.oh * d.ow * 16) w.1 wlen))

def repriseOk (s : State) (st : Nat) : Bool :=
  let n := rprDeps s st
  let (base, lay, wh, ww, wc) := watched s st
  let banks := rprU s st 8 2
  stReprise s st + 16 + 8 * n ≤ secLen s 11 && !bitAt (rprU s st 10 1) 7 && rprU s st 11 5 = 0
    && (if n = 0 then rprU s st 0 10 = 0
        else
          base % 8 = 0 && ww ≠ 0 && wh ≠ 0 && (lay = 1 || lay = 2) && n ≤ 64
            && (wh + 15) / 16 * ((ww + 15) / 16) ≤ 256 && inBanks banks base (tensorSize lay wh ww wc)
            && (List.range n).all (depOk s st)
            && (List.range 16).all fun b => !bitAt banks b || bitAt (stBanks s st) b)

/-- The 64 bytes of the verdict vector lie in banks the state powers, or in the held store at full power. -/
def verdictPlaced (s : State) (st : Nat) : Bool :=
  inBanks (stBanks s st) (vvAddr s) 64 || (heldBase ≤ vvAddr s && vvAddr s + 64 ≤ heldEnd && stHeld s st)

def limitsOk (s : State) (st : Nat) : Bool :=
  let tclk := stTclk s st
  let w := stBin s st .w
  let h := stBin s st .h
  stDivx s st ≤ 9 && field (limU s st 1 1) 4 4 = 0
    && (match st with
        | 1 => (w = 0 || w = 3) && h = 0 && tclk = 50 && stSclk s st ≤ 50
        | 2 => (w ≠ 0 || h ≠ 0) && 50 ≤ tclk && tclk ≤ 400 && stSclk s st ≤ 150
        | _ => w ≠ 0 && h ≠ 0 && 50 ≤ tclk && tclk ≤ 400 && stSclk s st ≤ 300)
    && field (limU s st 10 1) 1 7 = 0 && limU s st 11 1 = 0
    && exposureOk (stExposure s st .w) (w ≠ 0) && exposureOk (stExposure s st .h) (h ≠ 0)
    && touchOk s st && repriseOk s st && verdictPlaced s st

def declaredOk (s : State) : Bool :=
  secLen s 11 ≥ 240 && maxState s ≠ 0 && field (secU s 11 0 1) 2 6 = 0 && 1 ≤ ledMa s && ledMa s ≤ 8 && secU s 11 4 12 = 0
    && (usedStates s).all (limitsOk s)

/-! ### The whole body -/

def sectionOk (s : State) (k : Nat) : Bool :=
  match k with
  | 1 => stateTableOk s
  | 2 => schedulesOk s
  | 3 => (List.range (nDesc s)).all (descOk s)
  | 4 => (List.range (nRec s)).all (recOk s)
  | 9 => fusionOk s
  | 10 => verdictMapOk s
  | 11 => declaredOk s
  | _ => true

/-- What is found wrong with the selected image, in the order of R311: its DET and DETAIL, or nothing. Bytes of the body that no section
and no structure covers are not checked (log entry 56). -/
def imageFault (s : State) (exit : Bool) : Option (Nat × Nat) :=
  if slotEmpty s then some (16, s.sel)
  else if !headerOk s then some (17, 16)
  else if !digestOk s then some (9, if exit then 2 else 1)
  else match (List.range 16).find? (fun k => !entryOk s k) with
    | some k => some (17, k + 32)
    | none => match (List.range 16).find? (fun k => !sectionOk s k) with
      | some k => some (17, k)
      | none => none

end Sys2Proof.Machine
end

