-- ==== Sys2Proof/Machine/Metronome.lean ====
section
/-!
DEFINITION. The Metronome: the bar start with all that takes effect there, the slot boundary with its readouts and fixed actions, and
the samples that slots make (R101 to R119, R16, R37, R69, R70, R81, R122 to R129, R153 to R155, R337 to R340).
-/
namespace Sys2Proof.Machine

/-! ### Operations and deadlines (R153) -/

/-- The operations still queued or in flight with deadline `d`, in the order of R153: queue (0 Tutti, 1 Soli) and index. -/
def lateOps (s : State) (d : Nat) : List (Nat × Nat) :=
  let t := fun i => (syncAt s (descOff s i)).deadline = d
  let r := fun i => (syncAt s (recOff s i)).deadline = d
  (s.exec.tutti.filter t).map (fun i => (0, i)) ++ ((s.exec.q0.map (·.index)).filter t).map (fun i => (0, i))
    ++ ((s.exec.soli.map (·.index)).filter r).map (fun i => (1, i)) ++ ((s.exec.q1.map (·.index)).filter r).map fun i => (1, i)

/-- DETAIL of DET 15 (Table 17-2). -/
def overrunDetail (index queue : Nat) (full : Bool) (slot : Nat) : BitVec 32 :=
  BitVec.ofNat 32 (index + 65536 * queue + (if full then 131072 else 0) + 262144 * slot)

/-- A schedule overrun (R153, R154). -/
def overrun (s : State) (detail : BitVec 32) : State := stopEntries (trip s 15 false detail)

/-- The check that precedes a slot boundary's actions. At the boundary at which R333 abandons the operations after an uncorrectable error, they are
abandoned first and nothing is late (the model's choice, log entry 45). -/
def checkDeadlines (s : State) : State :=
  if s.exec.stopped then s
  else match lateOps s s.metro.slot with
    | [] => s
    | (q, i) :: _ => overrun s (overrunDetail i q false s.metro.slot)

/-! ### Injection (R337 to R339) -/

/-- The effective INJECT code at a slot 0; `set`: the code is set anew, so that a non-zero one counts as newly effective. -/
def setInjection (s : State) (code : RzCode) (set : Bool) : State :=
  let lock := if s.aon.lock = some code then s.aon.lock else none
  let test := s.boot.straps.test
  let acts := test && code ≠ 0 && lock.isNone
  { s with
    aon := { s.aon with lock := lock }
    inj := ⟨if acts then code else 0, test && code ≠ 0, acts && set⟩ }

/-- A warning: counted for R98 and on detector 1 (Table 17-1). -/
def countWarning (s : State) (inj : Bool) : State :=
  let w := match s.aon.warnings with
    | [] => [1]
    | a :: r => (a + 1) :: r
  trip { s with aon := { s.aon with
    warnings := w, cleanBars := 0, capNext := s.aon.capNext || (!s.aon.warnCap && w.sum > 8) } } 1 inj 0

/-- VCORE target step of DETAIL of DET 3 (Table 17-2). -/
def undervoltageDetail (s : State) : BitVec 32 := BitVec.ofNat 32 (65536 * s.supply.vcore)

def setLock (s : State) (c : RzCode) : State := { s with aon := { s.aon with lock := some c } }

/-- A trip of VWARN, or of the VCORE undervoltage detector, calls for a fermata at the next slot boundary; in a fermata its 2-beat count restarts and a
ramp is held again (R95 to R97). -/
def callFermata (s : State) (warn : Bool) : State :=
  match s.fermata with
  | some f => { s with fermata := some { f with released := false }, limiter := { s.limiter with paused := s.limiter.on } }
  | none => { s with fermataNext := some (warn || s.fermataNext.getD false) }

/-- The trip that a newly effective code forces in slot 0 (Table 17-3). The codes 12 and 14 act on the next frame and the next scan. -/
def forceTrip (s : State) : State :=
  let c := s.inj.code.toNat
  let s := { s with inj := { s.inj with newly := false } }
  match c with
  | 1 => callFermata (countWarning s true) true
  | 2 => isolate (trip (setLock s 2) 2 true 0) 0 true 4 true
  | 3 => callFermata (trip s 3 true (undervoltageDetail s)) false
  | 4 => if s.thermal.throttle then s else trip s 4 true 0x7F
  | 5 =>
    let s := if s.thermal.shutdown then s else trip s 5 true 0x7F
    { s with priv := { s.priv with byThermal := true, stop := true, ldoOff := true } }
  | 7 => stopEntries (trip s 7 true 0xFFFFFFFF)
  | 8 =>
    let s := stopEntries (trip (setLock s 8) 8 true 0xFFFFFFFF)
    { s with cond := { s.cond with force := true } }
  | 9 =>
    let s := trip (setLock s 9) 9 true 3
    { s with cond := { s.cond with force := true } }
  | 10 =>
    if s.vpix.ldo then
      let s := vpixOff (trip s 10 true 0)
      { s with priv := { s.priv with byLed := true, stop := true } }
    else s
  | 11 =>
    if s.vpix.ldo then
      let s := vpixOff (trip s 11 true 0)
      { s with priv := { s.priv with byPath := true, stop := true } }
    else s
  | 13 =>
    if s.duet.link = .up then linkDown (trip s 13 true (BitVec.ofNat 32 (s.duet.flight.length % 256))) .seeking else s
  | 15 => stopEntries (trip s 15 true 0xFFFF)
  | _ => s

/-! ### The bar start -/

/-- A confirmed code becomes effective (R70). -/
def BarCode.take (c : BarCode) : BarCode := { c with eff := c.conf.getD c.eff, conf := none }

/-- Confirmed codes take effect at slot 0 (R70, R72, R46). -/
def takeCodes (s : State) : State :=
  let c := s.codes
  let newRubato := c.rubato.conf.isSome
  let setInject := c.inject.conf.isSome
  let s := { s with
    codes := ⟨c.rubato.take, c.sense.take, c.inject.take, c.leak.take⟩
    aon := { s.aon with leak := c.leak.conf.or s.aon.leak } }
  let s := if newRubato then { s with cond := { s.cond with exact := true } } else s
  setInjection s s.codes.inject.eff setInject

/-- The new state takes effect (R92, R314, R318, R43), with the slot-0 work of the direction of the ramp that leads to it (R93, R94). A downward ramp
starts here, unless that ramp runs or has run since slot 445; with another divisor the follower's loop has no next length (R118). -/
def enterState (s : State) (new : PState) : State :=
  let old := s.st
  let up := isUpward s old new.num
  let ramp := s.limiter.on || s.limiter.dst = new
  let s := slotZeroWork s new.num (if ramp then s.limiter.up else up)
  let s := if up || ramp then s else startRamp s old new false
  { s with
    metro := { s.metro with next := if stDivx s old = stDivx s new.num then s.metro.next else none }
    cond := { s.cond with state := new, next := none, plan := 0, dur := 0, rules := [], overrunRec := false, exact := true } }

/-- What ends with the old bar: the warning window moves on, a clean bar counts towards the end of the cap (R98), the windowed
detectors count the bar (R331). -/
def closeBar (s : State) (clean : Bool) : State :=
  let n := if s.aon.warnCap && clean then s.aon.cleanBars + 1 else 0
  let capEnds := n ≥ 1024
  { s with
    aon := { s.aon with
      warnings := (0 :: s.aon.warnings).take 64
      cleanBars := if capEnds then 0 else n
      warnCap := s.aon.warnCap && !capEnds }
    dets := s.dets.map fun d => { d with since := d.since.map (· + 1) } }

/-- A scan-timer origin: a scan in progress is discarded, the recogniser resets, EVENT, WAKEG, LOST and KEY are cleared
(R246, R254, R255). -/
def touchOrigin (s : State) : State :=
  { s with touch := { s.touch with
      scanning := false, gesture := Gesture.zero, summary := s.touch.summary &&& ~~~(0x3E01E : BitVec 32) } }

/-- The bar in which the module runs its state's schedule: no upward ramp runs or waits (R92). -/
def runsSchedule (s : State) : Bool := !(s.limiter.on && s.limiter.up) && !s.limiter.armed && s.fermata.isNone

/-- A plane at slot 0: its stave is cleared (R129), B_eff of the last bar applies (R128), and in a bar that reads rows the exposure is
transferred into the storage nodes (R122), which hold charge only with VPIX up (R134). -/
def planeSlotZero (s : State) (p : Plane) : State :=
  let x := s.plane p
  let reads := s.metro.sched && stPlane s s.st p && x.power = .on && !s.priv.stop && !s.priv.ldoOff
  let n := binFactor (stBin s s.st p)
  s.setPlane p { x.clearStave with
    reading := reads
    bin := if n = 0 then x.bin else n
    black := x.blackNext.getD x.black
    blackNext := none
    blackSum := 0
    stored := (reads && s.vpix.above) || x.stored
    used := if reads then some (exposureOf s p) else x.used
    next := x.after
    after := none
    expStart := none }

/-- The power-up of a plane that a ramp waits for fails when a whole bar has passed without the LED interlock (Table 01-6): the plane stays off
and the ramp goes on. -/
def endFailedPowerUp (s : State) : State :=
  let l := s.limiter
  match l.busy with
  | none => s
  | some p =>
    if l.tried && !s.vpix.ldo then
      let s := s.setPlane p { s.plane p with power := .off }
      { s with limiter := { l with busy := none, tried := false } }
    else { s with limiter := { l with tried := true } }

/-- The holds on the planes that end at a bar start, and the restart that follows in a bar that is not in fermata (R37, R100, R335, R340, log
entry 67). -/
def planeHolds (s : State) : State :=
  let s := endFailedPowerUp s
  let p := s.priv
  let p := { p with
    byPriv := p.byPriv && (p.asserted || p.released < 16)
    byThermal := (p.byThermal && s.thermal.shutdown) || s.inject 5
    byLed := p.byLed && s.inject 10
    byPath := p.byPath && (p.agree < 16 || s.inject 11) }
  let off (x : Plane) := stPlane s s.st x && (s.plane x).power ≠ .on && !s.limiter.holdsPlane x
  let again (q : Plane) := let x := s.plane q; if x.power = .starting && !s.limiter.holdsPlane q then { x with power := PlanePower.off } else x
  let restart := s.fermata.isNone && !p.held && (off .w || off .h)
  { s with
    priv := { p with restart := restart, resumed := p.resumed || restart }
    planeW := if restart then again .w else s.planeW
    planeH := if restart then again .h else s.planeH
    metro := { s.metro with due := if restart then [.planeRestart] else [] } }

/-- The bar-context word (Table 07-3). -/
def contextWord (s : State) (exact : Bool) : BitVec 32 :=
  let b (x : Bool) (k : Nat) := if x then 2 ^ k else 0
  BitVec.ofNat 32 (s.st + b exact 3 + (if exact then 0 else 16 * s.codes.rubato.eff.toNat) + b s.leader 8 + b s.partnerUp 9)

/-- Tiles of a state's watched tensor (R233). -/
def tileCount (s : State) : Nat :=
  if rprDeps s s.st = 0 then 0
  else
    let w := watched s s.st
    (w.2.2.1 + 15) / 16 * ((w.2.2.2.1 + 15) / 16)

/-- An overrun found at the boundary that begins slot 0, against deadline 448, belongs to the bar that has ended (R155). -/
def closeOperations (s : State) : State :=
  if s.exec.stopped then s
  else match lateOps s 448 with
    | [] => s
    | (q, i) :: _ =>
      scrub (abandonOps (tripAt s 15 false (overrunDetail i q false 448) s.aon.bar 447))

/-- The records of a fermata that ends: that of detector 3, when it has tripped, with the fermata's length, then the state-change record (R96, R97). -/
def fermataRecords (s : State) (f : Fermata) (frm dst dur : Nat) : State :=
  let d := s.det 3
  let s := if d.pending then
      pushFault (s.setDet 3 { d with detail := BitVec.ofNat 32 (min f.len 65535 + d.detail.toNat / 65536 % 64 * 65536) }) 3 false 0
    else s
  noteChange s 3 frm dst f.len dur

/-- A fermata that has been released ends at slot 0, with its records. `frm`, `dur`: the state before that slot 0 and the bars spent in it. -/
def endFermata (s : State) (frm dur : Nat) : State :=
  match s.fermata with
  | some f =>
    if f.released then
      fermataRecords (newStamp { s with fermata := none, cond := { s.cond with exact := true } }) f frm s.st dur
    else s
  | none => s

/-- The bar that ends is clean: no warning and no fermata fell in it (R98). -/
def cleanBar (s : State) : Bool := !s.cond.ranFermata && s.aon.warnings.headD 0 = 0

/-- The bar that begins: its number, state, codes, links, exactness, planes (R16, R103, R142, R145). `bar`: its number;
`first`: the first bar after the latch moment or Tacet. AGE counts the bars from reset or from the end of Tacet entry on, so that it reads 1 in
the first bar (the model's choice, log entry 50). A lowered VCORE stays through a fermata and returns with the boundary of slot 0 (R95, R238). -/
def beginBar (s : State) (bar : BitVec 16) (first : Bool) : State :=
  let lastLen := s.metro.len
  let resumed := s.fermata.any (·.released)
  let s := if first then s else closeBar (closeOperations s) (cleanBar s)
  let s := { s with
    aon := { s.aon with bar := bar }
    metro := { s.metro with
      on := true, slot := 0, slot0 := true, issue := [], run := false, overScaled := s.metro.overScaled && s.fermata.isSome, noRun := false,
      hold := false, waited := 0,
      start := s.metro.start + lastLen }
    exec := { s.exec with
      cues := Vector.replicate 128 0, stopped := false, tiles := [] }
    cond := { s.cond with taken := false, dirty := false, past444 := false, plan := if first then 0 else s.cond.plan + 1, age := min (s.cond.age + 1) 65535 } }
  let held := s.fermata.isSome && !resumed
  let frm := s.st
  let dur := s.cond.dur
  let s := if held then s else
    match s.cond.next with
    | some n => if n = .tacet then s else enterState s n
    | none => s
  let s := { s with cond := { s.cond with dur := s.cond.dur + 1 } }
  let s := takeCodes s
  let s := duetSlotZero s lastLen
  let s := endFermata s frm dur
  let s := { s with cond := { s.cond with ranFermata := s.fermata.isSome } }
  let sched := runsSchedule s
  let changed := s.cond.plan = 0
  let s := { s with metro := { s.metro with sched := sched } }
  let s := planeHolds s
  let s := planeSlotZero (planeSlotZero s .w) .h
  let reads := s.planeW.reading || s.planeH.reading
  let exact := s.cond.exact || !s.cond.good || (s.priv.resumed && reads)
  let s := if sched then
      { s with
        exec := { s.exec with ctx := contextWord s exact, r := if exact then 0 else s.exec.r + 1, tiles := List.replicate (tileCount s) 0 }
        cond := { s.cond with exact := false, good := false }
        priv := { s.priv with resumed := s.priv.resumed && !reads } }
    else { s with cond := { s.cond with good := false } }
  if (sched && !s.touch.on) || (s.touch.on && (changed || resumed)) then
    touchOrigin { s with touch := { s.touch with on := true } }
  else s

/-- Nothing of the slot that runs is still to come. What trips at a bar start abandons at the boundary after slot 0's own. -/
def slotDone (s : State) : Bool :=
  s.counting && s.metro.due = [] && s.metro.issue = [] && (!s.exec.abandon || s.metro.slot0) && s.fermataNext.isNone && !s.metro.hold

/-- A bar that begins while Tacet entry or the step 3 of a reset runs: operations that are late are an overrun (R153), it is counted (R103), its
cues (R145) and tile sums (R233) are 0, it runs no schedule and evaluates nothing; the link's slot 0 goes on. -/
def beginEntryBar (s : State) : State :=
  let lastLen := s.metro.len
  let s := closeBar (closeOperations s) (cleanBar s)
  duetSlotZero { s with
    exec := { s.exec with cues := Vector.replicate 128 0, tiles := [] }
    cond := { s.cond with ranFermata := false }
    aon := { s.aon with bar := s.aon.bar + 1 }
    metro := { s.metro with slot := 0, slot0 := true, issue := [], sched := false, run := false, overScaled := false, start := s.metro.start + lastLen } }
    lastLen

/-- A bar starts, with the errors that its reads find (R333). -/
def startBar (s : State) (begins : State → State) : State :=
  withRomErrors { s with metro := { s.metro with barErrors := [] } } s.metro.barErrors begins

/-- BAR_START (R16): the end of slot 447. A follower that is not aligned, its divisor equal to the leader's, holds before slot 0
(R117). -/
def execBarStart (s : State) : Host.Outcome State Fault Refusal :=
  if slotDone s && s.metro.slot = 447 && !s.metro.slot0 then
    if !s.running then .next (startBar s beginEntryBar)
    else if s.follower && !s.metro.aligned && divisorsEqual s then .next { s with metro := { s.metro with hold := true, waited := 0 } }
    else .next (startBar s fun s => beginBar s (s.aon.bar + 1) false)
  else .next s

/-- ACQUISITION_HOLD_TIMEOUT (R117): the hold has lasted b_nom cycles; slot 0 begins at the timeout. -/
def execAcquisitionHoldTimeout (s : State) : Host.Outcome State Fault Refusal :=
  if s.running && s.metro.hold then
    .next (startBar s fun s =>
      beginBar { s with metro := { s.metro with start := s.metro.start + stBarLen s s.st } } (s.aon.bar + 1) false)
  else .next s

/-! ### Row readout (R104, R105, R127, R128) -/

/-- A black-corrected code (R127 step 2). -/
def blackCorrect (black : Nat) (a : Code) : Nat :=
  (clampInt ((a.toNat : Int) - roundDiv (black : Nat) 16) 0 1023).toNat

/-- The sums of `n` neighbouring values, added to the running sums. -/
def sumInto (n : Nat) (acc vals : List Nat) : List Nat :=
  (List.range (vals.length / n)).map fun k => acc.getD k 0 + ((vals.drop (n * k)).take n).sum

/-- The source row that a plane converts in a slot (Table 05-2): Plane W row s, Plane H the row r with ⌊5r/4⌋ = s. -/
def sourceRow (p : Plane) (slot : Nat) : Option Nat :=
  match p with
  | .w => if slot < 400 then some slot else none
  | .h =>
    let r := (4 * slot + 4) / 5
    if slot < 400 && 5 * r / 4 = slot then some r else none

/-- The slots of a plane's optically black rows (R105). -/
def blackSlot (p : Plane) (slot : Nat) : Bool :=
  match p with
  | .w => 400 ≤ slot && slot ≤ 403
  | .h => 404 ≤ slot && slot ≤ 407

/-- The row of the slot that has ended leaves the column accumulator for its stave position, each sum divided by its n² pixels and rounded
(R104, R127). -/
def PlaneState.arrive (x : PlaneState) : PlaneState :=
  let n := x.bin * x.bin
  match x.coming with
  | some k => { x with stave := x.stave.setIfInBounds k (some (x.acc.map fun v => (v + n / 2) / n)), acc := [], coming := none }
  | none => x

/-- Converting one source row: its sums, and with the last source row of a binned row the stave position (R127, R129, R10). -/
def PlaneState.convert (x : PlaneState) (row : Nat) (codes : List Code) : PlaneState :=
  let n := x.bin
  { x with
    acc := sumInto n x.acc (codes.map (blackCorrect x.black))
    coming := if row % n = n - 1 then some (row / n % 16) else none }

/-- B_eff after the black rows of a bar, from B_eff and their level B (R128). -/
def blackStep (black b : Nat) : Nat := ((black : Int) + roundDiv ((b : Int) - black) 4).toNat

/-- The fourth black row ends the measurement: B and the next B_eff (R128). -/
def PlaneState.convertBlack (x : PlaneState) (p : Plane) (last : Bool) (codes : List Code) : PlaneState :=
  let sum := x.blackSum + (codes.map (·.toNat)).sum
  if last then
    { x with blackSum := sum, blackNext := some (blackStep x.black (blackMean sum p)) }
  else { x with blackSum := sum }

def readPlane (s : State) (p : Plane) (codes : List Code) : State :=
  let x := s.plane p
  let slot := s.metro.slot
  if !x.reading then s
  else match sourceRow p slot with
    | some r =>
      let x := x.convert r codes
      s.setPlane p { x with stored := r + 1 < planeHeight p && x.stored }
    | none => if blackSlot p slot then s.setPlane p (x.convertBlack p (slot = 403 || slot = 407) codes) else s

/-! ### The PRIV_N sample (R37, R38) -/

/-- One sample of PRIV_N with hysteresis, and the comparison of the two paths, which trips at the third sample of a disagreement (log entries
52, 58). A held injection at code 11 keeps the detector from its no-fault state. -/
def samplePriv (s : State) (pad : PadLevel) : State :=
  let p := s.priv
  let asserted := match pad with
    | .low => true
    | .mid => p.asserted
    | .high => false
  let differ := s.vpix.closed = asserted
  let count := if differ then min (p.disagree + 1) 3 else 0
  let trips := count = 3 && p.disagree = 2
  let change := asserted != p.asserted
  let s := { s with
    priv := { p with
      asserted := asserted
      released := if asserted then 0 else min (p.released + 1) 16
      disagree := count
      agree := if differ || s.inject 11 then 0 else min (p.agree + 1) 16
      stop := p.stop || asserted
      ldoOff := p.ldoOff || asserted
      byPriv := p.byPriv || asserted }
    cond := { s.cond with dirty := s.cond.dirty || change } }
  if trips then
    let d := (if s.vpix.closed then 0 else 1) + (if asserted then 2 else 0)
    let s := vpixOff (trip s 11 false (BitVec.ofNat 32 d))
    { s with priv := { s.priv with byPath := true, stop := true } }
  else s

/-- What a sample or a trip has set for the next slot boundary: readout stops, the staves are cleared, the VPIX LDO goes off
(R13, R37, R100). -/
def applyStops (s : State) : State :=
  let was := s.planeW.reading || s.planeH.reading || s.planeW.power ≠ .off || s.planeH.power ≠ .off
  let s := if s.priv.stop then
      let t := stopPlanes s
      { t with priv := { t.priv with resumed := t.priv.resumed || was } }
    else s
  if s.priv.ldoOff then
    let t := vpixOff s
    { t with priv := { t.priv with ldoOff := false } }
  else s

/-! ### Over-scaled slots (R80, R111) -/

/-- VCORE's target in the slot (R80, R238): from the state's safe point, or from the one that a running ramp still holds. -/
def slotVcore (s : State) : Nat := scaledVcore s (if s.limiter.on then spNow s else safePoint s.st)

/-- The slot is over-scaled, its MARK entries taken together (R111). -/
def slotScaled (s : State) (marks : List Entry) : Bool :=
  let m := s.metro
  marks.foldl (fun _ e => e.arg.getLsbD 0) m.run && m.slot < 444 && m.sched && !m.noRun && !s.exec.ctx.getLsbD 3
    && s.codes.rubato.eff.toNat ≥ 8

/-- An over-scaled slot is counted (R241), and VCORE's target and the Soli ceiling follow it; a fermata holds both (R95). -/
def markSlot (s : State) (marks : List Entry) : State :=
  let scaled := slotScaled s marks
  let s := { s with metro := { s.metro with overScaled := if s.fermata.isSome then s.metro.overScaled else scaled } }
  { s with
    supply := { s.supply with vcore := if s.fermata.isSome || !s.running then s.supply.vcore else slotVcore s }
    exec := { s.exec with marked := if scaled then satAdd 32 s.exec.marked 1 else s.exec.marked } }

/-! ### The slot boundary -/

/-- The fixed actions of a slot (Table 05-3), with the end of SWAP_GO's time at slot 32 (R305). -/
def dueActions (s : State) : List Due :=
  let k := s.metro.slot
  let on (b : Bool) (d : Due) := if b then [d] else []
  let measure := s.running && s.fermata.isNone
  on (k % 16 = 0) .thermal
    ++ on (k % 64 = 0 && s.duet.link ≠ .off && !(k = 0 && s.leader)) .heartbeat
    ++ on (k = 32 && s.duet.q3.any (fun m => m.type = 8)) .withdraw
    ++ on (k = 440 && measure) .resistors ++ on (k = 441 && measure) .leak ++ on (k = 444 && s.running) .conductor

/-- Tacet entry begins with step 6 (Table 04-6): readout stops, the VPIX LDO goes off. Step 5 follows when VPIX is below 0.2 V; until then no
ramp moves. A VCORE that a fermata has held lowered returns with the Soli clock. -/
def beginTacetEntry (s : State) : State :=
  let s := vpixOff (stopPlanes s)
  let s := { s with
    limiter := { s.limiter with armed := false, paused := true }
    supply := { s.supply with vcore := if s.metro.overScaled then spNow s else s.supply.vcore }
    metro := s.metro.quiet
    fermata := none
    fermataNext := none
    touch := { s.touch with scanning := false }
    cond := { s.cond with phase := .tacetEntry 6, next := none } }
  if s.vpix.above then s else beginStep5 s

/-- A fermata in which slot 444 has chosen Tacet ends with its records, and Tacet entry begins (R95, R96, R333). -/
def leaveForTacet (s : State) (f : Fermata) : State :=
  beginTacetEntry (fermataRecords (newStamp { s with fermata := none }) f s.st 0 s.cond.dur)

/-- A ramp that was chosen at slot 444 starts, or a running one is planned anew, at slot 445 (R92, R93); Tacet entry begins, also out of a fermata
that has been released. -/
def startAtSlot445 (s : State) : State :=
  match s.cond.next, s.fermata with
  | some .tacet, some f => leaveForTacet s f
  | some .tacet, none => beginTacetEntry s
  | some n, _ => takeChoice s n
  | none, _ => s

/-- Step 3 of Tacet entry ends and step 2 begins: the link is off (Table 04-6, R303). -/
def endStep3 (s : State) : State :=
  let s := discardLink s
  { s with duet := { Duet.off with tx := s.duet.tx }, cond := { s.cond with phase := .tacetEntry 2, wait := 0 } }

/-- Step 3 of Table 04-6 runs: in Tacet entry, or at the beginning of a reset. -/
def State.inStep3 (s : State) : Bool := s.cond.phase = .tacetEntry 3 || s.cond.phase = .resetEntry

/-- What follows step 3 (R88, R90). -/
def leaveStep3 (s : State) : State := if s.cond.phase = .resetEntry then enterReset s s.boot.entry true else endStep3 s

/-- What a slot adds to the times that are counted in slots: the fermata's length (R96), the partner's silence (R297), the 2 beats of
step 3. -/
def countSlot (s : State) : State :=
  let s := { s with
    fermata := s.fermata.map fun f : Fermata => { f with len := min (f.len + 1) 65535 }
    duet := { s.duet with quiet := min (s.duet.quiet + 1) 65535 } }
  if s.inStep3 then
    let s := { s with cond := { s.cond with wait := s.cond.wait + 1 } }
    if 32 ≤ s.cond.wait then leaveStep3 s else s
  else s

/-- What happens at a slot boundary (R107): deadlines are checked; stops take effect; rows are read; PRIV_N is sampled; the slot's fixed actions
and entries are set up. -/
def slotWork (s : State) (adcW : Vector Code 640) (adcH : Vector Code 320) (x : BoundaryRead) : State :=
  let first := s.metro.slot0
  let slot := if first then 0 else s.metro.slot + 1
  let s := { s with metro := { s.metro with slot := slot, slot0 := false, barErrors := if slot = 447 then x.bar else [] } }
  let s := if first || s.fermata.isSome then s else checkDeadlines s
  let s := applyStops { s with planeW := s.planeW.arrive, planeH := s.planeH.arrive }
  let s := readPlane (readPlane s .w adcW.toList) .h adcH.toList
  let s := countSlot (samplePriv s x.pad)
  if !s.counting then s
  else
    let entries := if s.metro.sched && !s.exec.stopped && s.fermata.isNone then slotEntries s s.st s.metro.slot else []
    let s := markSlot s (entries.filter fun e => e.kind = 4)
    let s := { s with metro := { s.metro with due := dueActions s, issue := entries } }
    if s.metro.slot = 445 && s.running && s.fermata.all (·.released) then startAtSlot445 s else s

/-- SLOT_BOUNDARY (R107). `adcW`, `adcH`: the raw codes of the rows that the slot converts. After an error that the Metronome's reads of the
schedule find, no entry of the slot is issued (R333); while no bar runs, in Tacet entry and in the step 3 of a reset, it reads none. -/
def execSlotBoundary (adcW : Vector Code 640) (adcH : Vector Code 320) (x : BoundaryRead) (s : State) :
    Host.Outcome State Fault Refusal :=
  if slotDone s && (s.metro.slot0 || s.metro.slot < 447) then
    .next (withRomErrors s (if s.running then x.ups else []) fun s => slotWork s adcW adcH x)
  else .next s

/-- ABANDON_AND_SCRUB (R154, R333): at the slot boundary after an overrun or an uncorrectable error, the slot before it done, the operations
in flight are abandoned, a scrub begins, and an over-scaled run ends until the bar's end. -/
def execAbandonAndScrub (s : State) : Host.Outcome State Fault Refusal :=
  if s.counting && s.exec.abandon && s.metro.due = [] && !s.metro.slot0 then
    let was := s.metro.overScaled && s.fermata.isNone
    let s := scrub (abandonOps s)
    let s := { s with
      exec := { s.exec with abandon := false }
      metro := { s.metro with run := false, overScaled := s.metro.overScaled && s.fermata.isSome, noRun := true } }
    .next { s with supply := { s.supply with vcore := if was then slotVcore s else s.supply.vcore } }
  else .next s

/-- EXPOSURE_START (R122): in the slot that holds cycle ⌊(3584 - E) b / 3584⌋ of the bar before the transfer, every pixel of a powered plane
begins to integrate, at that cycle or when the plane was powered (R126); below 0.2 V on VPIX no pixel does (R134). -/
def execExposureStart (p : Plane) (s : State) : Host.Outcome State Fault Refusal :=
  let x := s.plane p
  let c := exposureCycle s p
  if s.running && s.metro.on && x.power = .on && s.vpix.above && slotCycle s s.metro.slot ≤ c && c < slotCycle s (s.metro.slot + 1) then
    .next (s.setPlane p { x with expStart := some (max c (x.expStart.getD 0)) })
  else .next s

/-! ### Samples of a slot -/

/-- Throttle and shutdown after one sample of the junction (Table 04-3, R99, R100). -/
def sampleThermal (s : State) (t : Int) : State :=
  let h := s.thermal
  let hot := if t ≥ 95 then min (h.hot + 1) 2 else 0
  let c90 := if t ≤ 90 then min (h.cool90 + 1) 16 else 0
  let c100 := if t ≤ 100 then min (h.cool100 + 1) 16 else 0
  let throttle := if h.throttle then c90 < 16 else hot ≥ 2
  let shutdown := if h.shutdown then c100 < 16 else t ≥ 110
  let detail := BitVec.ofNat 32 (t % 256).toNat
  let s := { s with thermal := ⟨hot, c90, c100, throttle, shutdown, t⟩ }
  let s := if throttle && !h.throttle then trip s 4 false detail else s
  if shutdown && !h.shutdown then
    let s := trip s 5 false detail
    { s with priv := { s.priv with byThermal := true, stop := true, ldoOff := true } }
  else s

def dropDue (s : State) (d : Due) : State :=
  { s with metro := { s.metro with due := s.metro.due.filter (· ≠ d) } }

/-- After the fixed actions of slot 0, a code that is newly effective forces its trip, before any entry is issued (R338). -/
def endFixed (s : State) : State :=
  if s.inj.newly && s.metro.slot = 0 && s.metro.due = [] && s.running then forceTrip s else s

/-- THERMAL_SAMPLE (R81): slot 16b. `t`: whole degrees Celsius. -/
def execThermalSample (t : Int) (s : State) : Host.Outcome State Fault Refusal :=
  if s.metro.due.contains .thermal then .next (endFixed (sampleThermal (dropDue s .thermal) t)) else .next s

/-- ACQUISITION_HOLD_SAMPLE (R117): during a hold PRIV_N and the junction are sampled once per b_nom / 448 cycles. -/
def execAcquisitionHoldSample (priv : PadLevel) (t : Int) (s : State) : Host.Outcome State Fault Refusal :=
  if s.running && s.metro.hold then
    let s := { s with metro := { s.metro with waited := s.metro.waited + 1 }, duet := { s.duet with quiet := min (s.duet.quiet + 1) 65535 } }
    .next (sampleThermal (samplePriv (applyStops s) priv) t)
  else .next s

/-- The two-bar rule for one pad (R70): a code that differs from the effective one becomes a candidate, and the same candidate again is
confirmed; any other reading replaces or clears it. -/
def BarCode.measure (c : BarCode) (m : RzCode) : BarCode :=
  if m = c.eff then { c with cand := none, conf := none }
  else if c.cand = some m then { c with cand := none, conf := some m }
  else { c with cand := some m, conf := none }

/-- RUBATO_SENSE_INJECT_SAMPLE (R69): slot 440. -/
def execRubatoSenseInjectSample (rubato sense inject : Measure) (s : State) : Host.Outcome State Fault Refusal :=
  if s.metro.due.contains .resistors then
    let c := s.codes
    .next { dropDue s .resistors with codes :=
      { c with rubato := c.rubato.measure (measureCode rubato), sense := c.sense.measure (measureCode sense),
               inject := c.inject.measure (measureCode inject) } }
  else .next s

/-- LEAK_SAMPLE (R46, R69): slot 441; a code higher than the effective one clears the candidate. -/
def execLeakSample (m : Measure) (s : State) : Host.Outcome State Fault Refusal :=
  if s.metro.due.contains .leak then
    let c := s.codes.leak
    let code := measureCode m
    let c := if c.eff.toNat < code.toNat then { c with cand := none, conf := none } else c.measure code
    .next { dropDue s .leak with codes := { s.codes with leak := c } }
  else .next s

end Sys2Proof.Machine
end

