-- ==== Sys2Proof/Machine/Power.lean ====
section
/-!
DEFINITION. Power-up, reset, the latch moment, verification, Tacet and supervision (R53 to R67, R81 to R98).
-/
namespace Sys2Proof.Machine

/-! ### Power-up steps 1 and 2 -/

/-- AON_POWER_ON (R85 step 1): VIN rises through 1.8 V; the AON domain starts with what it holds when it powers on. VIN is below VWARN's release
level until a FERMATA_END says that it has stayed above it (R342, log entry 75). -/
def execAonPowerOn (s : State) : Host.Outcome State Fault Refusal :=
  if s.aon.on then .next s
  else .next { s with
    aon := { Aon.lost with on := true }
    supply := { s.supply with low := true }
    cond := { s.cond with phase := .reset } }

/-- AON_LOSS (Table 04-3): VIN falls below 1.70 V; token count, unclean-stop flag and everything else the AON domain holds is
lost, the drop count with it (log entry 62). OTP keeps its contents, VIO is a supply of its own, and the storage nodes hold their charge while
VPIX is up (R134). -/
def execAonLoss (s : State) : Host.Outcome State Fault Refusal :=
  if s.aon.on then
    .next { State.reset with
      pending := s.pending, nvm := s.nvm, free := s.free
      supply := { State.reset.supply with vio := s.supply.vio }
      vpix := { State.reset.vpix with closed := s.vpix.closed, above := s.vpix.above }
      planeW := s.planeW.reset
      planeH := s.planeH.reset }
  else .next s

/-- The header digest of a SEL value is read during reset. An uncorrectable error in it reads as zero; its record is enqueued when it is
found (R272, Table 17-1), and the start then ends in Tacet (R333, log entry 74). -/
def readDigest (s : State) (x : DigestRead) : State :=
  let ws := romFailures x.ups
  let d := headerDigest { s.nvm with failing := ws } x.sel.toNat
  let s := { s with boot := { s.boot with
    selSampled := x.sel, digest := Vector.ofFn fun i : Fin 32 => d.getD i.val 0, broken := s.boot.broken || ws ≠ [] } }
  if ws = [] then s
  else pushFault (newStamp (ws.foldl (fun s w => trip s 8 false (BitVec.ofNat 32 (8 * w))) s)) 8 true 0

/-- SUPERVISION_START (R85 step 2): VIN has stayed above VRST for 1 ms; the core base comes up, the reading begins and the header
digest of the sampled SEL is read. With VIO valid the pads are isolated no longer (log entry 65). -/
def execSupervisionStart (x : DigestRead) (s : State) : Host.Outcome State Fault Refusal :=
  if s.cond.phase = .reset && !s.boot.started then
    .next (readDigest { s with
      supply := { s.supply with
        vrst := true, core := true, armed := true, vana := true, vcore := 4, isolated := s.supply.isolated && !s.supply.vio }
      boot := { s.boot with started := true, pairs := 0, pads := Vector.replicate 6 ⟨none, false⟩ } } x)
  else .next s

/-- The reading of R67 has ended. -/
def readingDone (b : Boot) : Bool := b.started && b.pairs ≠ 0 && b.pads.toList.all fun p => p.code.isSome

/-- One pad after a pair of measurements: two equal codes agree; after the eighth pair it takes its default (R67). -/
def PadRead.pair (p : PadRead) (pad : Nat) (a b : Measure) (last : Bool) : PadRead :=
  if p.code.isSome then p
  else if measureCode a = measureCode b then ⟨some (measureCode a), false⟩
  else if last then ⟨some (defaultCode pad), true⟩
  else p

/-- RESET_PAIR_READING (R67): a pair of measurements of every pad that has not agreed ends. -/
def execResetPairReading (first second : Vector Measure 6) (s : State) : Host.Outcome State Fault Refusal :=
  let b := s.boot
  if s.cond.phase = .reset && b.started && !readingDone b then
    let pads := Vector.ofFn fun i : Fin 6 => b.pads[i].pair i.val first[i] second[i] (b.pairs = 7)
    .next { s with boot := { b with pairs := b.pairs + 1, pads := pads } }
  else .next s

/-- SEL_CHANGE_DIGEST_READ (R58, R85): the sampled SEL has changed, and the header digest is read again. -/
def execSelChangeDigestRead (x : DigestRead) (s : State) : Host.Outcome State Fault Refusal :=
  if s.cond.phase = .reset && s.boot.started && x.sel ≠ s.boot.selSampled then .next (readDigest s x) else .next s

/-! ### VIO, reset and rail failures -/

/-- VIO_VALID (R54): VIO has stayed above 1.05 V for 100 us; in reset the pads then take their reset states. -/
def execVioValid (s : State) : Host.Outcome State Fault Refusal :=
  .next { s with supply := { s.supply with vio := true, isolated := s.supply.isolated && s.cond.phase ≠ .reset } }

/-- VIO_INVALID (R54): VIO falls below 0.95 V. Outside reset the module enters reset (R56, R90), in Tacet entry with isolation (R89);
the ring is discarded (R276, log entry 57). -/
def execVioInvalid (s : State) : Host.Outcome State Fault Refusal :=
  let s := { s with supply := { s.supply with vio := false } }
  match s.cond.phase with
  | .off => .next s
  | .resetEntry => .next s
  | .reset => .next s
  | .tacetEntry _ => .next (isolate s 3 false 4 true)
  | _ => .next (beginReset s 3)

/-- RST_N_LOW (R56, R57, R90): RST_N is recognised low. -/
def execRstNLow (s : State) : Host.Outcome State Fault Refusal :=
  let low (s : State) : State := { s with supply := { s.supply with rstLow := true } }
  match s.cond.phase with
  | .off => .next s
  | .resetEntry => .next (low s)
  | .reset => .next (low s)
  | _ => .next (low (beginReset s 1))

/-- VIN_BELOW_VRST (R56, R89, R90): reset with pad isolation; the unclean-stop flag takes the step code. -/
def execVinBelowVrst (s : State) : Host.Outcome State Fault Refusal :=
  if s.aon.on && s.supply.vrst then
    let s := trip s 2 false 0
    let entry := if stepCode s = 0 then (if s.cond.phase = .reset || s.cond.phase = .resetEntry then s.boot.entry else 2) else 4
    let s := isolate s 1 false entry false
    .next { s with supply := { s.supply with vrst := false } }
  else .next s

/-- VCORE_COLLAPSE (R89, R90): VCORE falls below 0.40 V while its monitor is armed. The undervoltage detector trips too; the reset
prevails. -/
def execVcoreCollapse (s : State) : Host.Outcome State Fault Refusal :=
  if s.aon.on && s.supply.armed then .next (isolate (trip s 3 false (undervoltageDetail s)) 2 false 4 false) else .next s

/-! ### The latch moment (R56, R58, R61) -/

/-- LATCH_MOMENT: reset completes. The straps and codes are latched, everything that restarts with every latch moment restarts (R98, R360), a
scrub takes place (R140), the Duet link and the event port are enabled, and verification or Flailo mode begins; a start whose digest read failed
goes to Tacet (R333, log entry 74). -/
def execLatchMoment (straps : Straps) (vpp : Bool) (s : State) : Host.Outcome State Fault Refusal :=
  if s.cond.phase = .reset && s.supply.vrst && s.supply.vio && readingDone s.boot then
    let code (i : Nat) : RzCode := (((s.boot.pads[i]?).getD ⟨none, false⟩).code).getD 0
    let flailo := !s.nvm.sealed && straps.test && straps.sel = 7 && vpp
    .next { s with
      supply := { s.supply with rstLow := false, isolated := false }
      aon := { s.aon with leak := some (code 2), warnings := [], warnCap := false, capNext := false, cleanBars := 0 }
      boot := { s.boot with straps := straps, tempo := code 0, slew := code 4, started := false, broken := false }
      codes := ⟨⟨code 1, none, none⟩, ⟨code 3, none, none⟩, ⟨code 5, none, none⟩, ⟨code 2, none, none⟩⟩
      thermal := Thermal.zero
      dets := Vector.replicate 20 Detector.none
      ram := Ram.empty
      exec := Exec.zero
      port := { s.port with on := true }
      duet := { Duet.off with link := if straps.duet then .seeking else .off }
      cond := { Conductor.zero with
        phase := if flailo then .flailo else if s.boot.broken then .tacetEntry 4 else .verifying false
        locked := !flailo && s.boot.broken
        entry := s.boot.entry } }
  else .next s

/-! ### Verification and the first bar (R85 step 5, R86, R87, R311) -/

/-- Tacet entry without a running bar, after a failed verification: step 4 comes next; only a reset ends the Tacet (R84). -/
def verificationTacet (s : State) : State :=
  { s with cond := { s.cond with phase := .tacetEntry 4, locked := true } }

/-- The trip, record and Tacet entry of an image that is found broken (R5, R49, R60, R272). -/
def failVerification (s : State) (det detail : Nat) : State :=
  let s := newStamp (trip s det false (BitVec.ofNat 32 detail))
  verificationTacet (pushFault s det true 0)

/-- The cap of R22. -/
def stateCap (s : State) : PState :=
  let c := PState.ofNum (maxState s)
  let c := if s.thermal.throttle || s.inject 4 then PState.min c .mezzo else c
  if s.aon.warnCap then PState.min c .mezzo else c

/-- min(cap, max(floor, chosen)) (R22). -/
def effective (s : State) (wake : Bool) (chosen : PState) : PState :=
  PState.min (stateCap s) (PState.max (if wake then .mezzo else .tacet) chosen)

/-- On success the initial state is entered and the first bar begins; the limiter ramps up from 0 mA (R85, R86). After Tacet the warning
window moves on to that bar (R98). While VIN has not stayed above VWARN's release level, the bars begin in fermata (R342). -/
def enterInitial (s : State) (exit wake : Bool) : State :=
  let st := effective s wake (PState.ofNum (initState s))
  let s := { s with
    boot := { s.boot with digest := Vector.ofFn fun i : Fin 32 => (headerDigest s.nvm s.sel).getD i.val 0 }
    cond := { s.cond with phase := .running, state := st, next := none, starting := true }
    fermata := none
    fermataNext := if s.supply.low then some true else none }
  let s := startRamp s 0 st true
  let s := if exit then { s with aon := { s.aon with warnings := (0 :: s.aon.warnings).take 64 } } else s
  let s := if exit then setInjection s s.codes.inject.eff false else setInjection s s.codes.inject.eff true
  let bar := if exit then s.aon.bar + 1 else 0
  let fresh := s.inj.newly
  let s := beginBar s bar true
  { s with inj := { s.inj with newly := fresh } }

/-- DIGEST_VERIFICATION (R85): step 5's verification ends. `ups`: errors that the reads find. -/
def execDigestVerification (wake : Bool) (ups : List Upset) (s : State) : Host.Outcome State Fault Refusal :=
  match s.cond.phase with
  | .verifying exit =>
    match ups.find? (·.multi) with
    | some u => .next (failVerification s 8 (u.addr / 8 * 8))
    | none =>
      match imageFault s exit with
      | some (d, detail) => .next (failVerification s d detail)
      | none => .next (enterInitial s exit wake)
  | _ => .next s

/-! ### Tacet (R84, R87, R88) -/

/-- TACET_EVENT_PORT_DRAIN (Table 04-6 step 4): the wait ends when no released, unretired record is left, or after 2 bars; the
records still in the ring are discarded and counted. An up module enqueues its NOTICE in step 3 (R303), which has nothing to do otherwise (log
entry 69). -/
def execTacetEventPortDrain (elapsed : Bool) (s : State) : Host.Outcome State Fault Refusal :=
  if s.cond.phase = .tacetEntry 4 && (elapsed || s.port.ring.all fun e => e.st = .enqueued) then
    let s := newStamp (discardRing s)
    let s := { s with port := { s.port with on := false, served := none, release := false } }
    .next (if s.duet.link = .up then
        let s := pushQ3 s 9 [1]
        { s with cond := { s.cond with phase := .tacetEntry 3, wait := 0 } }
      else endStep3 s)
  else .next s

/-- TACET_ENTRY_END (Table 04-6 step 2): the core base is off with everything it held, and the wake timer is loaded (R82, R84, R360). -/
def execTacetEntryEnd (s : State) : Host.Outcome State Fault Refusal :=
  if s.cond.phase = .tacetEntry 2 then
    let period := if s.cond.locked then 0 else tacetWake s
    .next { s with
      supply := { s.supply with core := false, armed := false, vana := false, vcore := 0 }
      aon := { s.aon with wakeTimer := if period = 0 then none else some (32000 * period) }
      codes := ⟨⟨s.codes.rubato.eff, none, none⟩, ⟨s.codes.sense.eff, none, none⟩, ⟨s.codes.inject.eff, none, none⟩,
                ⟨s.codes.leak.eff, none, none⟩⟩
      metro := Metro.off
      ref := RefClk.zero
      planeW := PlaneState.off
      planeH := PlaneState.off
      priv := { Priv.reset with asserted := s.priv.asserted }
      thermal := Thermal.zero
      dets := Vector.replicate 20 Detector.none
      inj := ⟨0, s.inj.active, false⟩
      limiter := Limiter.idle
      blocks := Blocks.off
      ram := Ram.empty
      exec := Exec.zero
      touch := Touch.off
      duet := { Duet.off with tx := s.duet.tx }
      cond := { Conductor.zero with phase := .tacet, locked := s.cond.locked } }
  else .next s

/-- Leaving Tacet (R84, R87): step 2 of Table 04-5 begins. `entry`: ENTRY of the CAUSE 1 record. -/
def leaveTacet (s : State) (entry : Nat) : State :=
  { s with
    aon := { s.aon with wakeTimer := none }
    cond := { s.cond with phase := .tacetExit, cause := 1, entry := entry } }

/-- WAKE_HIGH_IN_TACET (R84): WAKE has been high for 100 us. -/
def execWakeHighInTacet (s : State) : Host.Outcome State Fault Refusal :=
  if s.cond.phase = .tacet && !s.cond.locked then .next (leaveTacet s 1) else .next s

/-- AON_WAKE_TIMER (R84): the wake timer, counting AON edges since the end of Tacet entry, expires. -/
def execAonWakeTimer (s : State) : Host.Outcome State Fault Refusal :=
  if s.cond.phase = .tacet && !s.cond.locked && s.aon.wakeTimer.isSome then .next (leaveTacet s 2) else .next s

/-- CORE_BASE_STEP_COMPLETE (R87): step 2 has completed on leaving Tacet; a scrub takes place (R140), the link and the port are
enabled, and the digest is verified again. -/
def execCoreBaseStepComplete (s : State) : Host.Outcome State Fault Refusal :=
  if s.cond.phase = .tacetExit then
    let s := scrub { s with
      supply := { s.supply with core := true, armed := true, vana := true, vcore := 4 }
      port := { s.port with on := true }
      duet := { s.duet with link := if s.boot.straps.duet then .seeking else .off } }
    .next { s with cond := { s.cond with phase := .verifying true } }
  else .next s

/-! ### Supervision and fermata (R95 to R98) -/

/-- A warning in a phase in which the module is up (log entry 11). -/
def countsWarnings (s : State) : Bool :=
  match s.cond.phase with
  | .running => true
  | .verifying _ => true
  | .tacetEntry _ => true
  | _ => false

/-- VWARN_TRIP (R95, R98): VIN falls below 3.10 V. Fermata follows at the next slot boundary; in fermata the 2-beat count restarts. Before bars
run, the first bar begins in fermata (R342, log entry 75). -/
def execVwarnTrip (s : State) : Host.Outcome State Fault Refusal :=
  let s := { s with supply := { s.supply with low := s.supply.low || s.aon.on } }
  if !countsWarnings s then .next s
  else
    let s := countWarning s false
    .next (if s.running then callFermata s true else s)

/-- VCORE_UNDERVOLTAGE (R97): detector 3 trips, and fermata follows in the same way. -/
def execVcoreUndervoltage (s : State) : Host.Outcome State Fault Refusal :=
  .next (if s.running then callFermata (trip s 3 false (undervoltageDetail s)) false else s)

/-- The duty of an amplitude, min(1, 16 A mV / VIN), in the bridge's resolution of 1/256 (R258, Table 18-5; rounding: log entry 79). -/
def dutyOf (amp vin : Nat) : Nat := if vin = 0 then 256 else min 256 ((8192 * amp + vin) / (2 * vin))

/-- An effect in overdrive or sustain enters its brake at once, and a pending effect is discarded (R262). -/
def brakeAccent (s : State) : Accent :=
  let a := s.accent
  let brake (e : Nat) : Accent := { a with state := .brake e, pending := none, cut := false, bridge := .antiphase (dutyOf (effectU s e 6 1) a.vin) }
  match a.state with
  | .overdrive e _ => brake e
  | .sustain e _ => brake e
  | .armed _ => { a with state := .idle, pending := none, cut := false }
  | .waiting => { a with state := .idle, pending := none, cut := false }
  | _ => { a with pending := none, cut := false }

/-- The deadline check at a boundary that begins a fermata (R153, R155): an overrun is recorded; what it stops is stopped anyway. -/
def checkLast (s : State) : State :=
  let d := s.metro.slot + 1
  if s.exec.stopped || s.metro.slot0 then s
  else match lateOps s d with
    | [] => s
    | (q, i) :: _ => tripAt s 15 false (overrunDetail i q false d) s.aon.bar (if d = 448 then 447 else d)

/-- FERMATA_ENTRY (R95): at the slot boundary after a trip. Operations are abandoned, readout stops, scans pause, the effect brakes, a
scrub takes place (R140), every candidate code is cleared and a confirmation of the abandoned bar is void (R71), unless its bar is complete (log
entry 71); a running ramp is held, and so are VCORE and the engine clocks. A bar that the boundary completes has had no fermata (R98). -/
def execFermataEntry (s : State) : Host.Outcome State Fault Refusal :=
  match s.fermataNext with
  | some warn =>
    if s.running && s.metro.due = [] && s.metro.issue = [] then
      let was := s.planeW.reading || s.planeH.reading
      let s := scrub (abandonOps (stopPlanes (checkLast s)))
      let c := s.codes
      let clr (b : BarCode) : BarCode := { b with cand := none, conf := if s.metro.slot = 447 then b.conf else none }
      .next { s with
        fermataNext := none
        fermata := some ⟨warn, 0, false⟩
        metro := { s.metro with sched := false, run := false }
        exec := { s.exec with abandon := false, stopped := true }
        priv := { s.priv with resumed := s.priv.resumed || was }
        codes := ⟨clr c.rubato, clr c.sense, clr c.inject, clr c.leak⟩
        touch := { s.touch with scanning := false }
        accent := brakeAccent s
        limiter := { s.limiter with paused := s.limiter.on }
        cond := { s.cond with ranFermata := s.cond.ranFermata || s.metro.slot ≠ 447 } }
    else .next s
  | none => .next s

/-- FERMATA_END (R96, R97): the release condition has held for 2 beats. The next slot 0 resumes; a ramp that was waiting starts or is planned; if
slot 444 chose Tacet, the fermata ends here with its record and Tacet entry begins. Outside fermata VIN is then above VWARN's release level. -/
def execFermataEnd (s : State) : Host.Outcome State Fault Refusal :=
  let s := { s with supply := { s.supply with low := false } }
  match s.fermata with
  | some f =>
    if s.running && !f.released then
      if s.cond.next = some .tacet then .next (leaveForTacet s f)
      else
        let s := { s with fermata := some { f with released := true }, limiter := { s.limiter with paused := false } }
        .next (match s.cond.next with
          | some n => takeChoice s n
          | none => s)
    else .next s
  | none => .next s

end Sys2Proof.Machine
end

