-- ==== Sys2Proof/Machine/Conductor.lean ====
section
/-!
DEFINITION. The verdict latch, and CONDUCTOR_SLOT_444: verdict map, fusion, pins, records, triggers, the state table and the choice of
the next state (R16, R18, R22, R41 to R44, R73 to R77, R88, R92, R98, R124, R261, R268 to R273, R298 to R304, R313 to R319, R330 to R336).
-/
namespace Sys2Proof.Machine

/-! ### Memory errors that a step's reads find (Table 17-1) -/

/-- One error in a 64-bit word of tensor SRAM or the held store that a read finds: a written word with a single-bit error is
corrected and counted (detector 6), one with a multi-bit error trips detector 7; a word not written is not checked. -/
def takeUpset (s : State) (u : Upset) : State :=
  if !inRam u.addr || !s.ram.flags.contains (u.addr / 8) then s
  else
    let a := u.addr / 8 * 8
    if u.multi then eccTrip { s with ram := s.ram.upset (u.addr / 8) } 7 a
    else trip s 6 false (BitVec.ofNat 32 a)

/-- The reads of an operation under a held injection at code 6: each read of a written word counts one correction (Table 17-3). At least
`n` reads are known; how many more an operation makes is free (log entry 6). -/
def countInjected6 (s : State) (n : Nat) : State :=
  if s.inject 6 then
    let n := n + Config.readsOfOperation s.free
    let s := { s with free := s.free + 1 }
    if n = 0 then s
    else
      let s := trip s 6 true 0xFFFFFFFF
      let x := s.det 6
      s.setDet 6 { x with count := min (x.count + (n - 1)) 65535 }
  else s

/-- The errors that a read of the words `ws` finds: those of `ups`, new with this step, and those that the words hold already (R359). -/
def readErrors (s : State) (ws : List Nat) (ups : List Upset) : State :=
  let ws := ws.filter fun w => s.ram.flags.contains w
  if ws = [] then s
  else
    let old := (s.ram.bad.filter fun w => ws.contains w).filter fun w => !ups.any fun u => u.multi && u.addr / 8 = w
    let s := (ups.filter fun u => ws.contains (u.addr / 8)).foldl takeUpset (countInjected6 s ws.length)
    old.foldl (fun s w => eccTrip s 7 (8 * w)) s

/-! ### The verdict latch (R317) -/

/-- The Conductor copies the verdict vector into its latch. The latch is taken for the bar's verdict before slot 444, and an uncorrectable error in the
vector leaves the bar without a fresh one (R333). -/
def latchVerdict (s : State) (ups : List Upset) : State :=
  let a := vvAddr s
  let ws := (List.range 8).map (a / 8 + ·)
  let s := readErrors s ws ups
  { s with cond := { s.cond with
      latch := Vector.ofFn fun i : Fin 64 => s.ram.read (a + i.val)
      taken := s.metro.slot < 444 && !ws.any fun w => s.ram.bad.contains w } }

/-- A post (R145): the increment is added and saturates; where the verdict cue reaches its target, in whichever slot, the verdict vector is copied
(R317). -/
def post (s : State) (cue inc : Nat) (ups : List Upset) : State :=
  if inc = 0 then s
  else
    let old := ((s.exec.cues[cue]?).getD 0).toNat
    let new := satAdd 16 old inc
    let s := { s with exec := { s.exec with cues := s.exec.cues.setIfInBounds cue (BitVec.ofNat 16 new) } }
    if cue = vCue s && old < vTgt s && vTgt s ≤ new then latchVerdict s ups else s

/-! ### Verdict map (Table 16-5, R319) -/

/-- Element `i` of a verdict vector; elements beyond 63 read 0. -/
def elem (v : Vector Byte 64) (i : Nat) : Nat := ((v[i]?).getD 0).toNat

/-- An element that byte `k` of the state's block names, 0 when its EN bit is clear. -/
def blockElem (s : State) (v : Vector Byte 64) (k : Nat) : Nat :=
  let b := verdictU s s.st k 1
  if bitAt b 7 then elem v (field b 0 6) else 0

def mapPresent (s : State) (v : Vector Byte 64) : Bool :=
  let b := verdictU s s.st 0 1
  bitAt b 7 && verdictU s s.st 1 1 ≤ elem v (field b 0 6)

def mapGest (s : State) (v : Vector Byte 64) : BitVec 3 :=
  let g := blockElem s v 2
  if g ≤ 6 then BitVec.ofNat 3 g else 0

/-- What the verdict map makes of a wake gesture in Pianissimo, no verdict needed: PRESENT and GEST, each where the map drives it (R255 and the text
below Table 13-3, R316); which values is free (log entry 85). `pins`: what the slot applies otherwise. -/
def wakePins (s : State) (summary : BitVec 32) (pins : Bool × BitVec 3) : Bool × BitVec 3 :=
  if s.st = 1 && summary.getLsbD 16 then
    let w := Config.wakeVerdict summary pins
    (if bitAt (verdictU s s.st 0 1) 7 then w.1 else pins.1, if bitAt (verdictU s s.st 2 1) 7 then w.2 else pins.2)
  else pins

/-! ### Fusion (R300, R301, Table 15-5) -/

/-- The export list: elements 0 to 5 when the section is absent (R320). -/
def exportElem (s : State) (k : Nat) : Nat := if secLen s 9 = 0 then k else secU s 9 k 1

/-- The partner input of bar n: the fresh verdict of bar n - 1, though that of bar n may have come already. -/
def partnerInput (s : State) : Option PartnerVerdict := s.duet.partner.find? fun p => p.bar = s.aon.bar - 1

def fuseOp (op a b : Nat) : Nat :=
  match op with
  | 0 => a
  | 1 => b
  | 2 => max a b
  | 3 => min a b
  | 4 => Nat.lor a b
  | 5 => (a + b + 1) / 2
  | _ => min 255 (a + b)

/-- The fused vector: the leader's own, with each rule applied in table order. -/
def fuse (s : State) (own : Vector Byte 64) : Vector Byte 64 :=
  let n := if secLen s 9 = 0 then 0 else secU s 9 6 1
  (List.range n).foldl (fun v k =>
    let r := secU s 9 (8 + 4 * k) 4
    let a := elem own (field r 5 5)
    let val := match partnerInput s with
      | none => a
      | some p =>
        let i := field r 10 3
        let b := if i < 6 then ((p.elems[i]?).getD 0).toNat else if i = 6 then (if p.present then 1 else 0) else p.gest.toNat
        fuseOp (field r 13 3) a b
    v.setIfInBounds (field r 0 5) (BitVec.ofNat 8 val)) own

/-! ### Payloads of planned records (Tables 14-6 to 14-11, R319) -/

def byte (n : Nat) : Byte := BitVec.ofNat 8 n

/-- `n` consecutive elements from `i`. -/
def elems (v : Vector Byte 64) (i n : Nat) : List Byte := (List.range n).map fun k => byte (elem v (i + k))

/-- The share of R188. -/
def clipShare (total clipped : Nat) : Nat := if total = 0 then 0 else (2 * 65535 * clipped + total) / (2 * total)

/-- The payload of a planned record of types 1, 2, 3 and 5, and of part `part` of type 4. -/
def planPayload (s : State) (type first part : Nat) (v : Vector Byte 64) (present : Bool) (gest : BitVec 3) (summary : BitVec 32) :
    List Byte :=
  let e (k : Nat) := elem v (first + k)
  match type with
  | 1 => [byte (if present then 1 else 0), byte (e 0)] ++ leBytes 2 s.cond.age ++ elems v (first + 1) 16
  | 2 => [byte gest.toNat, byte (e 0), byte (e 1), byte (e 2 % 4)] ++ elems v (first + 3) 16
  | 3 => leBytes 4 summary.toNat ++ elems v first 16
  | 4 => [byte (part + 4 * (e 0 % 4) + 16 * (e 1 % 2)), byte (e 2), byte (e 3), 0] ++ elems v (first + 4 + 14 * part) 14
  | _ =>
    let n := min 3 (e 0)
    [byte n, byte (e 0)] ++ elems v (first + 1) (6 * n)

/-- A diagnostics record reads and clears its counters (R270, R188, R241). It reports this module alone, so its SRC is 0 (R281). -/
def pushDiagnostics (s : State) (plan : Nat) : State :=
  if bitAt plan 12 then
    let x := s.exec
    let s := pushRecord s 6 false 0 fun _ =>
      [1, 0, 0, 0] ++ leBytes 4 x.skipped ++ leBytes 4 x.restAge ++ leBytes 4 x.restWeak ++ leBytes 4 x.marked
    { s with exec := { s.exec with skipped := 0, restAge := 0, restWeak := 0, marked := 0 } }
  else
    let layers := (List.range (field plan 13 3)).map fun k => field plan (16 + 8 * k) 8
    let read (st : Vector (Nat × Nat) 64 × List Byte) (l : Nat) :=
      let c := (st.1[l]?).getD (0, 0)
      (st.1.setIfInBounds l (0, 0), st.2 ++ [byte l] ++ leBytes 2 (clipShare c.1 c.2))
    let (clips, body) := layers.foldl read (s.exec.clips, [])
    let s := pushRecord s 6 false 0 fun _ => [0, byte layers.length] ++ body
    { s with exec := { s.exec with clips := clips } }

/-- The record or records of one plan entry that fires (R318); a stale one carries STALE and an all-zero payload (R42). -/
def pushPlan (s : State) (plan src : Nat) (stale : Bool) (v : Vector Byte 64) (present : Bool) (gest : BitVec 3)
    (summary : BitVec 32) : State :=
  let ty := field plan 0 4
  let one (s : State) (part : Nat) := pushRecord s ty stale (if ty = 6 then 0 else src) fun s =>
    if stale then [] else planPayload s ty (field plan 16 6) part v present gest summary
  if ty = 0 then s
  else if ty = 4 then one (one (one s 0) 1) 2
  else if ty = 6 && !stale then pushDiagnostics s plan
  else one s 0

def planFires (c plan : Nat) : Bool := field plan 0 4 ≠ 0 && field plan 4 8 ≠ 0 && c % field plan 4 8 = field plan 4 8 - 1

/-! ### Fault records at slot 444 (Table 17-1, R331, R43) -/

/-- The partner's silence, in slots, at which the timeout fires: 8 × ⌈d_p / d⌉ beats of 16 slots (R297). -/
def silenceLimit (s : State) : Nat :=
  let d := stDivisor s s.st
  128 * ((divisor s.duet.pDivx.toNat + d - 1) / d)

/-- The trip condition of a detector holds at slot 444 (R330 ONGOING). Detector 10 watches only while the VPIX LDO is on, which its trip
turns off (R33). -/
def ongoing (s : State) (d : Nat) : Bool :=
  match d with
  | 1 => s.supply.low
  | 4 => s.thermal.throttle || s.inject 4
  | 5 => s.thermal.shutdown || s.inject 5
  | 10 => s.inject 10
  | 11 => s.priv.disagree = 3 || s.inject 11
  | 6 => s.inject 6
  | 12 => s.inject 12
  | 13 => s.inject 13 || (s.duet.link ≠ .off && silenceLimit s ≤ s.duet.quiet)
  | 14 => s.touch.noise || s.inject 14
  | 18 => true
  | _ => false

/-- A detector has a record to make at this slot 444. -/
def faultDue (s : State) (d : Nat) (capStarts complete : Bool) : Bool :=
  let x := s.det d
  match d with
  | 1 => capStarts
  | 3 => false
  | 6 => x.pending && x.since.all (64 ≤ ·)
  | 12 => x.pending && x.since.all (64 ≤ ·)
  | 15 => x.pending && !s.cond.overrunRec
  | 18 => !s.nvm.sealed
  | 19 => complete && s.aon.unclean.isSome
  | _ => x.pending

def pushFaultAt444 (s : State) (d : Nat) : State :=
  match d with
  | 1 => pushFault (s.setDet 1 { s.det 1 with detail := BitVec.ofNat 32 (s.aon.warnings.sum % 256) }) 1 (ongoing s 1) 0
  | 15 =>
    let s := pushFault s 15 false 0
    { s with cond := { s.cond with overrunRec := true } }
  | 18 => pushFault (trip s 18 false 0) 18 true 0
  | 19 =>
    match s.aon.unclean with
    | some u =>
      let x := s.det 19
      let s := s.setDet 19 { x with
        pending := true, count := u.count, injected := u.injected, bar := u.bar, slot := u.slot, detail := BitVec.ofNat 32 u.detail }
      let s := pushFault s 19 false u.step
      { s with aon := { s.aon with unclean := none } }
    | none => s
  | _ => pushFault s d (ongoing s d) 0

def pushFaults (s : State) (capStarts complete : Bool) : State :=
  ((fromTo 1 15) ++ [18, 19]).foldl (fun s d => if faultDue s d capStarts complete then pushFaultAt444 s d else s) s

/-! ### The state table (R314) -/

/-- WAKE as the state table and the floor take it: the pin, or the window of any WAKE frame received (R302). -/
def wakeLevel (s : State) (wake : Bool) : Bool :=
  wake || s.duet.wakes.any fun w =>
    let k := (s.aon.bar - w.1).toNat
    1 ≤ k && k ≤ w.2.toNat

def ruleHolds (r : Nat) (present : Bool) (gest : BitVec 3) (wake : Bool) : Bool :=
  let p := field r 4 2
  let g := field r 6 8
  let w := field r 15 2
  (p = 0 || (p = 1 && !present) || (p = 2 && present)) && (g = 0 || bitAt g gest.toNat)
    && (w = 0 || (w = 1 && !wake) || (w = 2 && wake))

/-- The counts of the rules after this evaluation. -/
def countRules (s : State) (wake : Bool) : List Nat :=
  (List.range (nRule s)).map fun i =>
    if ruleHolds (stateRule s i) s.cond.present s.cond.gest wake then min (s.cond.rules.getD i 0 + 1) 2047 else 0

/-- The first rule, in table order, that qualifies. -/
def chooseState (s : State) (counts : List Nat) : PState :=
  let st := s.st
  match (List.range (nRule s)).find? fun i =>
      let r := stateRule s i
      (field r 0 2 = 0 || field r 0 2 = st) && field r 17 11 ≤ counts.getD i 0 && field r 2 2 ≠ st with
  | some i => PState.ofNum (field (stateRule s i) 2 2)
  | none => s.cond.state

/-! ### Pins (R18, R73 to R77, R299) -/

/-- A trigger at slot 444 (R261). -/
def triggerEffect (a : Accent) (e : Nat) : Accent :=
  match a.state with
  | .idle => { a with state := .armed e }
  | .overdrive _ _ => { a with pending := some e, cut := true }
  | .sustain _ _ => { a with pending := some e, cut := true }
  | _ => { a with pending := some e }

/-- A bar has a verdict that was taken in time in a bar that read what its state reads (R317, R126, R334). -/
def verdictWhole (s : State) : Bool :=
  let planes := stPlane s s.st .w || stPlane s s.st .h
  s.cond.taken && s.metro.sched && s.fermata.isNone && !s.priv.restart
    && !(planes && (s.priv.byThermal || s.priv.byLed || s.priv.byPath))

/-- The bar's verdict is fresh: whole, and of a bar run entirely under one range (R74). -/
def verdictFresh (s : State) : Bool := verdictWhole s && !s.cond.dirty

/-- One more bar without a fresh verdict (R74, R75), in fermata as well. The hold sum starts with the first bar of a change of range: a bar that
only a PRIV toggle has spoilt comes before it (log entry 66). -/
def countStale (s : State) : State :=
  let before := s.cond.stale = 0 && verdictWhole s
  let units := 7200 * stDivisor s s.st / tempoRate s.boot.tempo
  { s with cond := { s.cond with stale := s.cond.stale + 1, hold := if before then s.cond.hold else s.cond.hold + units } }

/-- The fall-backs of a slot 444 without a fresh verdict (R74, R75). -/
def fallBack (s : State) : State :=
  let s := countStale s
  let c := s.cond
  { s with cond := { c with
      gest := if c.stale ≥ 2 then 7 else c.gest
      present := c.present && !(c.stale ≥ 2 && c.hold ≥ 1800 * pHold s) } }

/-- PRESENT and GEST at slot 444. -/
def applyPins (s : State) (fresh : Bool) (v : Vector Byte 64) (summary : BitVec 32) : State :=
  let was := s.cond.present
  let s := if fresh then
      { s with cond := { s.cond with stale := 0, hold := 0, present := mapPresent s v, gest := mapGest s v } }
    else fallBack s
  let w := wakePins s summary (s.cond.present, s.cond.gest)
  let s := { s with cond := { s.cond with present := w.1, gest := w.2 } }
  let s := if s.follower then { s with cond := { s.cond with present := false, gest := 7 } } else s
  { s with cond := { s.cond with age := if s.cond.present = was then s.cond.age else 0 } }

/-- TOUCH_N follows the latest completed scan (R77), after Tacet too (log entry 60); EVENT, WAKEG and LOST are cleared after the read (R255). -/
def applyTouch (s : State) (hold : Bool) : State :=
  let t := s.touch
  let n := if !t.on then true else if t.done && !hold then !t.summary.getLsbD 0 else s.cond.touchN
  { s with
    touch := { t with summary := t.summary &&& ~~~(0x3E000 : BitVec 32), done := t.done && hold }
    cond := { s.cond with touchN := n } }

/-! ### The exposure of the bar after the next (R124, R125) -/

/-- The exposure that slot 444 lays down under a state. -/
def layExposure (s : State) (st : Nat) (p : Plane) : Option Exposure :=
  let w := stExposure s st p
  if !stPlane s st p then none
  else if bitAt w 14 then
    let a := match p with
      | .w => 0x1043FFF8
      | .h => 0x1043FFFC
    let q := leNat ((List.range 4).map fun k => s.ram.read (a + k))
    some ⟨min (field w 0 12) (max (field w 16 12) (field q 0 12)), min (field w 12 2) (field q 12 2)⟩
  else some ⟨field w 0 12, field w 12 2⟩

/-- The word of the held store that holds both exposure requests is read when a plane follows its request. -/
def setExposures (s : State) (st : Nat) (ups : List Upset) : State :=
  let asks (p : Plane) : Bool := stPlane s st p && bitAt (stExposure s st p) 14
  let s := if asks .w || asks .h then readErrors s [0x1043FFF8 / 8] ups else s
  { s with
    planeW := { s.planeW with after := layExposure s st .w }
    planeH := { s.planeH with after := layExposure s st .h } }

/-! ### Actions of a fresh verdict on the link (R302, R304, R300) -/

/-- The WAKE action. -/
def wakeAction (s : State) (v : Vector Byte 64) : State :=
  let h := blockElem s v 4
  if h ≠ 0 && s.duet.link = .up then pushQ3 s 6 (leBytes 2 s.aon.bar.toNat ++ [byte h]) else s

/-- The SWAP action; ignored in a handover bar (R306) and after a commitment (R307). -/
def swapAction (s : State) (v : Vector Byte 64) : State :=
  if blockElem s v 5 ≠ 0 && s.duet.link = .up && !s.duet.handover && s.duet.commit.isNone then
    if s.role then pushQ3 s 7 [byte s.duet.epoch.toNat] else { s with duet := { s.duet with held := true } }
  else s

/-- The VERDICT frame of a follower, and of both modules in a handover bar (R300, R306). With FRESH 0 no verdict map applies: PRESENT is 0, GEST 7,
and the elements are those of the last latch (the model's choice, log entry 91). -/
def verdictFrame (s : State) (fresh : Bool) (v : Vector Byte 64) (summary : BitVec 32) : State :=
  if s.follower || (s.duet.link = .up && s.duet.handover) then
    let w := wakePins s summary (fresh && mapPresent s v, if fresh then mapGest s v else 7)
    pushQ3 s 3 (leBytes 2 s.aon.bar.toNat
      ++ [byte ((if fresh then 1 else 0) + (if w.1 then 2 else 0) + 4 * w.2.toNat)]
      ++ leBytes 3 (summary.toNat % 2 ^ 20) ++ (List.range 6).map fun k => byte (elem v (exportElem s k)))
  else s

/-! ### Slot 444 -/

/-- The state-change records of this slot 444, by ascending CAUSE (R271, R273). FROM of the CAUSE 0 record is 0, as before a start, and TO the state of
the bar in which the start ends, which a ramp bar may have changed (the model's choice, log entry 46). -/
def pushChanges (s : State) (startEnds : Bool) (chosen : PState) : State :=
  let st := s.st
  let dur := s.cond.dur
  let code := s.codes.rubato.conf.isSome || s.codes.sense.conf.isSome || s.codes.inject.conf.isSome || s.codes.leak.conf.isSome
  let own := (if chosen ≠ s.cond.state && chosen ≠ .tacet then [(2, st, chosen.num, 0, dur)] else [])
    ++ (if code && chosen ≠ .tacet then [(4, st, st, 0, dur)] else [])
    ++ (if s.duet.change then [(5, st, st, 0, dur)] else [])
    ++ (if chosen = .tacet then [(6, st, 0, 0, dur)] else [])
  let all := s.cond.deferred ++ own
  let s := { s with duet := { s.duet with change := false }, cond := { s.cond with deferred := all } }
  if s.cond.starting && !startEnds then s
  else
    let s := if startEnds then pushChange s s.cond.cause 0 st 0 s.cond.entry 0 else s
    let s := { s with cond := { s.cond with deferred := [] } }
    (fromTo 2 6).foldl (fun s c => (all.filter fun x => x.1 = c).foldl (fun s x => pushChange s x.1 x.2.1 x.2.2.1 x.2.2.2.1 0 x.2.2.2.2) s) s

/-- The Conductor's choice at slot 444 (R22, R44, R298, R303, R314, R333): the state and what it changes on the way. -/
def decide444 (s : State) (wake : Bool) : State × PState :=
  let w := wakeLevel s wake
  let counts := countRules s w
  let table := !s.follower
  let chosen := if s.duet.noticed then .tacet
    else if s.follower then s.duet.pState.getD s.cond.state
    else chooseState s counts
  let s := { s with
    cond := { s.cond with rules := if table then counts else s.cond.rules }
    duet := { s.duet with noticed := false } }
  if s.cond.force then ({ s with cond := { s.cond with force := false, locked := true } }, .tacet)
  else (s, effective s w chosen)

/-- What the choice of Tacet does in its slot 444: the Tacet pin values (R76), and every code waiting to become effective lapses (R70). -/
def tacetValues (s : State) : State :=
  let c := s.codes
  let lapse (b : BarCode) : BarCode := { b with cand := none, conf := none }
  { s with
    cond := { s.cond with present := false, gest := 7, touchN := true, age := if s.cond.present then 0 else s.cond.age }
    codes := ⟨lapse c.rubato, lapse c.sense, lapse c.inject, lapse c.leak⟩ }

/-- What the choice leaves for slot 445 and the next slot 0 (R88, R92, R93, R262). -/
def noteChoice (s : State) (chosen : PState) : State :=
  if chosen = .tacet then { s with cond := { s.cond with next := some .tacet }, accent := brakeAccent s }
  else if chosen = s.cond.state then { s with cond := { s.cond with next := none } }
  else { s with cond := { s.cond with next := some chosen }, limiter := { s.limiter with armed := true } }

/-- The choice of a slot 444. In fermata the state table is not evaluated (R95), but detector 8 chooses Tacet (R333); the choice made before the
fermata stands otherwise. The second part: the state that the next bar runs; the third: a choice is made here. -/
def choose (s : State) (wake : Bool) : State × PState × Bool :=
  if s.fermata.isNone then
    let (s, chosen) := decide444 s wake
    (s, chosen, true)
  else if s.cond.force then
    ({ s with cond := { s.cond with force := false, locked := true } }, .tacet, s.cond.next ≠ some .tacet)
  else (s, s.cond.next.getD s.cond.state, false)

/-- The flags of a relayed record (R281): STALE, HOLD, INJ, TEST, PRIV and BROWN are the OR of the frame's and the leader's own. The leader's
own STALE concerns the records that a verdict map plans, types 1 to 6; the others never carry it (R268). -/
def relayFlags (s : State) (type frame : Nat) (stale : Bool) : Nat :=
  Nat.lor (Nat.land frame 0x6F) (flagsOf s + (if stale && 1 ≤ type && type ≤ 6 then 1 else 0))

/-- The partner's records that have arrived since the last slot 444 are enqueued with SRC 1 by a leader (R272, R281, log entry 36), which in a start
holds them back like its own (R273). -/
def pushPartners (s : State) (inStart stale : Bool) : State :=
  if s.leader && !inStart then
    s.duet.relayed.foldl (fun s r => pushQ2 (makeRoom s) r.1.toNat (relayFlags s r.1.toNat r.2.1.toNat stale) 1 r.2.2)
      { s with duet := { s.duet with relayed := [] } }
  else s

/-- What a fresh verdict triggers: the effect, the WAKE action and the SWAP action (R261, R302, R304, R317). -/
def actVerdict (s : State) (v : Vector Byte 64) : State :=
  let e := blockElem s v 3
  let s := if 1 ≤ e && e ≤ nEff s then { s with accent := triggerEffect s.accent e } else s
  swapAction (wakeAction s v) v

/-- The records that the verdict map plans for this bar (R41, R318). -/
def pushPlans (s : State) (src : Nat) (stale : Bool) (v : Vector Byte 64) (present : Bool) (gest : BitVec 3) (summary : BitVec 32) : State :=
  (List.range 6).foldl (fun s i =>
    let p := planEntry s s.st i
    if planFires s.cond.plan p then pushPlan s p src stale v present gest summary else s) s

/-- The verdict vector that slot 444 applies: a leader's fused one, else the module's own (R301, R317). -/
def appliedVerdict (s : State) : Vector Byte 64 := if s.leader then fuse s s.cond.latch else s.cond.latch

/-- What the Conductor does in slot 444: pins, touch, cap, choice, then the records in the order of R272, and what the choice and a fresh
verdict start. -/
def conductorWork (s : State) (wake : Bool) (ups : List Upset) : State :=
  let s := newStamp (dropDue s .conductor)
  let inFermata := s.fermata.isSome
  let complete := s.metro.sched && !inFermata
  let startEnds := s.cond.starting && complete
  let fresh := verdictFresh s
  let summary := s.touch.summary
  let own := s.cond.latch
  let v := appliedVerdict s
  let src := if s.leader && !s.duet.handover then 2 else 0
  let s := if inFermata then countStale s else applyPins s fresh v summary
  let present := s.cond.present
  let gest := s.cond.gest
  let s := applyTouch s inFermata
  let capStarts := s.aon.capNext && !inFermata
  let s := if capStarts then { s with aon := { s.aon with warnCap := true, capNext := false, cleanBars := 0 } } else s
  let (s, chosen, chooses) := choose s wake
  let enters := chooses && chosen = .tacet
  let s := if enters then tacetValues s else s
  let s := verdictFrame s fresh own summary
  let s := pushFaults s capStarts complete
  let s := pushChanges s (startEnds || (s.cond.starting && enters)) (if chooses then chosen else s.cond.state)
  let inStart := s.cond.starting && !startEnds
  let s := pushPartners s inStart (!fresh)
  let s := if inStart then s else pushPlans s src (!fresh) v present gest summary
  let s := if fresh then actVerdict s v else s
  let s := if chooses then noteChoice s chosen else s
  let s := setExposures s chosen.num ups
  { s with cond := { s.cond with
    past444 := true
    starting := s.cond.starting && !startEnds && !enters
    good := complete && !s.exec.stopped } }

/-- CONDUCTOR_SLOT_444 (R317). `wake`: the level of the WAKE pin; `ups`: errors that its reads find. -/
def execConductorSlot444 (wake : Bool) (ups : List Upset) (s : State) : Host.Outcome State Fault Refusal :=
  if !s.metro.due.contains .conductor then .next s else .next (withRomErrors s ups fun s => conductorWork s wake ups)

end Sys2Proof.Machine
end

