-- ==== Sys2Proof/Machine/Accent.lean ====
section
/-!
DEFINITION. The Accent haptic driver (R256 to R262): effect start, half-cycles, resonance tracking and the active brake. Times are exact
fractions of a second.
-/
namespace Sys2Proof.Machine

/-! ### The fields of an effect (Table 13-4) -/

def effF0 (s : State) (e : Nat) : Nat := effectU s e 0 1
def effOverAmp (s : State) (e : Nat) : Nat := effectU s e 1 1
def effOverLen (s : State) (e : Nat) : Nat := effectU s e 2 1
def effSusAmp (s : State) (e : Nat) : Nat := effectU s e 3 1
def effSusLen (s : State) (e : Nat) : Nat := effectU s e 4 2
def effBrakeAmp (s : State) (e : Nat) : Nat := effectU s e 6 1
def effTrack (s : State) (e : Nat) : Bool := bitAt (effectU s e 7 1) 0

/-- The first half-cycle: 1 / (2 F0), F0 = 140 + 0.5 × the field (R259). -/
def firstHalf (f0 : Nat) : Rat := 1 / (280 + (f0 : Rat))

/-- 1/520 to 1/280 s (R259). -/
def clampHalf (t : Rat) : Rat := max (1 / 520) (min (1 / 280) t)

/-! ### Phases (R260) -/

/-- A half-cycle is driven at an amplitude; with a sense window, the bridge is released for the 100 us before its expected zero crossing (R259,
R260). -/
def driveHalf (positive : Bool) (amp vin : Nat) (window : Bool) : Bridge := .drive positive (dutyOf amp vin) window

/-- An effect begins its first half-cycle, in overdrive or, when it has none, in sustain. -/
def beginEffect (s : State) (a : Accent) (e vin : Nat) : Accent :=
  let hasOver := effOverLen s e ≠ 0
  { a with
    state := if hasOver then .overdrive e 1 else .sustain e 1
    cut := false
    bridge := driveHalf true (if hasOver then effOverAmp s e else effSusAmp s e) vin false
    half := firstHalf (effF0 s e)
    next := firstHalf (effF0 s e)
    vin := vin }

/-- EFFECT_START (R261): the effect triggered at slot 444 begins at slot 445, or a pending effect begins after a brake. -/
def execEffectStart (vin : Nat) (s : State) : Host.Outcome State Fault Refusal :=
  let a := s.accent
  match a.state with
  | .armed e =>
    if s.running && s.fermata.isNone && s.metro.slot = 445 then .next { s with accent := beginEffect s a e vin } else .next s
  | .waiting =>
    match a.pending with
    | some e =>
      if s.running && s.fermata.isNone then .next { s with accent := { beginEffect s a e vin with pending := none } } else .next s
    | none => .next s
  | _ => .next s

/-- The brake's half-cycle: in antiphase to the back-EMF, with a sense window (R260). -/
def brakeHalf (s : State) (a : Accent) (e : Nat) (emf : Bool) : Accent :=
  { a with state := .brake e, cut := false, bridge := driveHalf (!emf) (effBrakeAmp s e) a.vin true }

/-- The half-cycle that follows the first `total` half-cycles of an effect, or the brake (R258 to R260). -/
def nextHalf (s : State) (a : Accent) (e total : Nat) (emf : Bool) : Accent :=
  let overLen := effOverLen s e
  let positive := total % 2 = 0
  if a.cut then brakeHalf s a e emf
  else if total < overLen then
    { a with state := .overdrive e (total + 1), bridge := driveHalf positive (effOverAmp s e) a.vin (effTrack s e) }
  else if total < overLen + effSusLen s e then
    { a with state := .sustain e (total - overLen + 1), bridge := driveHalf positive (effSusAmp s e) a.vin (effTrack s e) }
  else brakeHalf s a e emf

/-- HALF_CYCLE_END (R258 to R260): the driver goes on to the next half-cycle, of the length that the last crossing has set. With no trigger
pending the cut flag is clear. -/
def execHalfCycleEnd (vin : Nat) (emf : Bool) (s : State) : Host.Outcome State Fault Refusal :=
  let a := { s.accent with vin := vin, half := s.accent.next }
  match a.state with
  | .overdrive e n => .next { s with accent := nextHalf s a e n emf }
  | .sustain e n => .next { s with accent := nextHalf s a e (effOverLen s e + n) emf }
  | .brake e => .next { s with accent := brakeHalf s a e emf }
  | _ => .next s

/-- The running half-cycle has a sense window, in which a zero crossing can be detected. -/
def Bridge.senses (b : Bridge) : Bool :=
  match b with
  | .off => false
  | .drive _ _ window => window
  | .antiphase _ => true

/-- BACK_EMF_ZERO_CROSSING in the sense window of a half-cycle: with TRACK = 1 the time since the crossing before sets the next half-cycle's
length (R259), and a playing effect for which a trigger has come enters its brake, in antiphase to the back-EMF that it has reached (R261). -/
def execBackEmfZeroCrossing (gap : Rat) (s : State) : Host.Outcome State Fault Refusal :=
  let a := s.accent
  let play (e : Nat) : Host.Outcome State Fault Refusal :=
    let a := if effTrack s e then { a with next := clampHalf gap } else a
    .next { s with accent :=
      if a.cut then { a with state := .brake e, cut := false, bridge := .antiphase (dutyOf (effBrakeAmp s e) a.vin) } else a }
  if !a.bridge.senses then .next s
  else match a.state with
    | .overdrive e _ => play e
    | .sustain e _ => play e
    | .brake e => play e
    | _ => .next s

/-- BRAKE_END (R260): the bridge is released; a pending effect waits for a zero crossing or 2 ms. The end comes at a quiet sense window or
after 6 ms, which is the event itself. -/
def execBrakeEnd (_quiet : Bool) (s : State) : Host.Outcome State Fault Refusal :=
  let a := s.accent
  match a.state with
  | .brake _ => .next { s with accent := { a with state := if a.pending.isSome then .waiting else .idle, cut := false, bridge := .off } }
  | _ => .next s

end Sys2Proof.Machine
end

