-- ==== Sys2Proof/Machine/Duet.lean ====
section
/-!
DEFINITION. The Duet link's frames as they are sent and received (R283 to R309) and the follower's alignment (R115 to R118).
-/
namespace Sys2Proof.Machine

/-! ### Frames received -/

def fByte (f : FrameBytes) (i : Nat) : Nat := ((f[i]?).getD 0).toNat

/-- A little-endian field of `n` bytes. -/
def fU (f : FrameBytes) (i n : Nat) : Nat := leNat ((List.range n).map fun k => (f[i + k]?).getD 0)

def fBytes (f : FrameBytes) (i n : Nat) : List Byte := (List.range n).map fun k => (f[i + k]?).getD 0

def fType (f : FrameBytes) : Nat := fByte f 0 % 16
def fSeq (f : FrameBytes) : BitVec 4 := BitVec.ofNat 4 (fByte f 0 / 16)

/-- Every bit that the frame's type leaves reserved is 0 and no field holds a value that its table marks invalid (Tables 15-1, 15-3, 15-4). A
STATE of 4 to 7, which Table 14-2 only calls not produced, leaves the frame valid (log entry 34). -/
def fieldsOk (f : FrameBytes) : Bool :=
  let zeros (i : Nat) : Bool := (fBytes f i (14 - i)).all (· = 0)
  fByte f 1 / 64 = 0 &&
    match fType f with
    | 1 => fByte f 4 / 128 = 0 && fByte f 4 % 16 ≤ 9 && fByte f 6 / 32 = 0
    | 2 => fByte f 4 / 128 = 0 && fByte f 4 % 16 ≤ 9 && fByte f 6 / 32 = 0
    | 3 => fByte f 4 / 32 = 0 && fByte f 7 / 16 = 0
    | 4 => fByte f 2 / 16 = 0
    | 5 => zeros 12
    | 6 => zeros 5
    | 7 => fByte f 2 / 16 = 0 && zeros 3
    | 8 => fByte f 2 / 16 = 0 && zeros 5
    | 9 => fByte f 2 = 1 && zeros 3
    | _ => false

/-- What makes a complete frame invalid (R284): its CRC, its TYPE, a reserved field. -/
def frameFault (f : FrameBytes) : Option FrameError :=
  if crc16 (fBytes f 0 14) ≠ fU f 14 2 then some .crc
  else if fType f = 0 || 10 ≤ fType f then some .type
  else if !fieldsOk f then some .reserved
  else none

/-- DETAIL of DET 12 (Table 17-2). -/
def frameErrorCode (e : FrameError) : Nat :=
  match e with
  | .crc => 1
  | .type => 2
  | .reserved => 3
  | .incomplete => 4

/-- An invalid frame is discarded without an acknowledgement and counted (R284); a seeking module starts its match anew (R290). -/
def dropFrame (s : State) (e : FrameError) (inj : Bool) : State :=
  let s := trip s 12 inj (BitVec.ofNat 32 (frameErrorCode e))
  if s.duet.link = .seeking then { s with duet := { s.duet with seen := 0 } } else s

/-- A frame acknowledges one of this module's message frames (R294, R295); the acknowledgement of its SWAP_GO commits it (R306). -/
def takeAck (s : State) (f : FrameBytes) : State :=
  if fByte f 1 / 16 % 2 = 0 then s
  else
    let q := fByte f 1 % 16
    match s.duet.flight.find? fun x => fByte x.bytes 0 / 16 = q with
    | some x =>
      let s := { s with duet := { s.duet with flight := s.duet.flight.filter fun y => fByte y.bytes 0 / 16 ≠ q } }
      if fType x.bytes = 8 && !s.role then { s with duet := { s.duet with commit := some (BitVec.ofNat 16 (fU x.bytes 3 2)) } } else s
    | none => s

/-! ### Link frames (R287, R290, R292) -/

/-- A BAR or HEARTBEAT frame matches: digest fragment, TEMPO and ROLE (R290). -/
def frameMatches (s : State) (f : FrameBytes) : Bool :=
  let i := fByte f 6 % 8
  fBytes f 7 4 = (List.range 4).map (fun k => (s.boot.digest[4 * i + k]?).getD 0)
    && fByte f 5 % 16 = s.boot.tempo.toNat && (fByte f 1 / 32 % 2 = 1) ≠ s.role

def frameReady (f : FrameBytes) : Bool := fByte f 6 / 8 % 2 = 1

/-- The STATE of a valid BAR frame, when it names a state (R298). -/
def frameState (f : FrameBytes) : Option PState :=
  if fByte f 4 / 16 % 8 ≤ 3 then some (PState.ofNum (fByte f 4 / 16 % 8)) else none

/-- A scheduled heartbeat, sent at a slot 64q, has begun within one slot of a slot 64q of this module's bars, as those of an aligned partner do
(R116); the frame's first transition comes 24 cycles after the slot begins. -/
def heartbeatFits (s : State) (arrival : Int) : Bool :=
  let len : Int := s.metro.len
  let a := arrival - 24 - s.metro.start
  let k := (14 * a + len) / (2 * len)
  64 * (7 * a - k * len).natAbs ≤ s.metro.len

/-- What a heartbeat tells the leader's loop: the latest r (R116). A follower that is not aligned sends RCORR 0, and its bar number is another or its slots
are more than one off; it acquires alignment under R117, and the leader then starts with x = 0 (log entry 72). -/
def leaderLoop (s : State) (f : FrameBytes) (time : HeartbeatTime) : State :=
  let r := signed 24 (fU f 11 3)
  if time.scheduled && (fU f 2 2 ≠ s.aon.bar.toNat || (r = 0 && !heartbeatFits s time.arrival)) then { s with metro := { s.metro with x := 0, rRecv := 0 } }
  else { s with metro := { s.metro with rRecv := r } }

/-- What a valid BAR or HEARTBEAT does to the link: the matching of a seeking module, the end of an up link. `time`: of a BAR,
which is sent at slot 0, not scheduled at a slot 64q with q ≥ 1. -/
def takeLink (s : State) (f : FrameBytes) (time : HeartbeatTime) : State :=
  let s := { s with duet := { s.duet with
    pDivx := BitVec.ofNat 4 (fByte f 4 % 16)
    pState := if fType f = 1 then (frameState f).or s.duet.pState else s.duet.pState } }
  let fits := frameMatches s f
  match s.duet.link with
  | .seeking =>
    let d := s.duet
    let seen := if fits then d.seen ||| BitVec.ofNat 8 (2 ^ (fByte f 6 % 8)) else 0
    { s with duet := { d with seen := seen, ready := d.ready || seen = 255, partnerReady := d.partnerReady || frameReady f } }
  | .up =>
    if !fits || !frameReady f || (time.scheduled && fByte f 5 / 16 ≠ s.duet.epoch.toNat) then linkDown s .seeking
    else
      let s := takeAck s f
      if s.leader then leaderLoop s f time else s
  | .off => s

/-- A received frame of type `type`: invalid ones, and every one under a held injection at code 12, are discarded; a valid frame of another
type is not this command, which then does nothing. -/
def receive (s : State) (type : Nat) (f : FrameBytes) (act : State → State) : Host.Outcome State Fault Refusal :=
  if s.duet.link = .off then .next s
  else if s.inject 12 then .next (dropFrame s .crc true)
  else match frameFault f with
    | some e => .next (dropFrame s e false)
    | none => if fType f = type then .next (act { s with duet := { s.duet with quiet := 0 } }) else .next s

/-- The follower's error and alignment at a BAR frame, and the loop of R116. -/
def alignLoop (s : State) (tl : Int) (barno : BitVec 16) : State :=
  let m := s.metro
  let len : Int := m.len
  let k := (2 * (tl - m.start) + len) / (2 * len)
  let e := m.start + k * len - tl
  let n := s.aon.bar + BitVec.ofInt 16 k
  let aligned := divisorsEqual s && n = barno && 448 * e.natAbs ≤ m.len
  if !aligned then { s with metro := { m with aligned := false, tlPrev := some tl } }
  else match m.tlPrev with
    | none => { s with metro := { m with aligned := true, tlPrev := some tl } }
    | some prev =>
      let bnom := stBarLen s s.st
      let d := tl - prev - e.tdiv 2
      let next := max (bnom : Int) (min d (bnom + lengthLimit bnom))
      { s with metro := { m with aligned := true, tlPrev := some tl, next := some next.toNat, r := bnom - d } }

/-- What a follower does with a BAR frame (R115 to R118): in a hold it begins slot 0 with the frame's number at the arrival, aligned when the
divisors are equal; else it runs its loop. -/
def followBar (s : State) (f : FrameBytes) (arrival : Int) : State :=
  let barno := BitVec.ofNat 16 (fU f 2 2)
  if !(s.running && s.metro.on) then s
  else if s.metro.hold then
    let same := divisorsEqual s
    startBar s fun s => beginBar { s with metro := { s.metro with
      aligned := same, next := none, x := 0, r := 0, tlPrev := if same then some arrival else none, start := arrival - s.metro.len } }
      barno false
  else alignLoop s (arrival - 24) barno

/-- A heartbeat that shows another divisor ends a follower's hold: slot 0 begins, as many slot lengths late as the hold has lasted (R118). -/
def followHeartbeat (s : State) : State :=
  if s.running && s.metro.hold && !divisorsEqual s then
    startBar s fun s =>
      beginBar { s with metro := { s.metro with start := s.metro.start + s.metro.waited * stBarLen s s.st / 448 } } (s.aon.bar + 1) false
  else s

/-- BAR. `arrival`: the 48 MHz cycle of the frame's first transition. -/
def execBar (f : FrameBytes) (arrival : Int) (s : State) : Host.Outcome State Fault Refusal :=
  receive s 1 f fun s =>
    let t := takeLink s f ⟨false, arrival⟩
    if t.follower then followBar t f arrival else t

/-- HEARTBEAT. -/
def execHeartbeat (f : FrameBytes) (time : HeartbeatTime) (s : State) : Host.Outcome State Fault Refusal :=
  receive s 2 f fun s => followHeartbeat (takeLink s f time)

/-! ### Message frames (R288, R294, R296) -/

/-- A valid message frame: it is acknowledged, and an up link executes it unless it is among the last 4 executed; a seeking one does not
(R289). -/
def takeMessage (s : State) (f : FrameBytes) (act : State → State) : State :=
  let q := fSeq f
  if s.duet.link ≠ .up then { s with duet := { s.duet with acks := s.duet.acks ++ [q] } }
  else
    let s := takeAck s f
    let s := { s with duet := { s.duet with acks := s.duet.acks ++ [q] } }
    if s.duet.memory.contains q then s
    else act { s with duet := { s.duet with memory := (q :: s.duet.memory).take 4 } }

/-- VERDICT (R300): a fresh one becomes a partner's verdict. -/
def execVerdict (f : FrameBytes) (s : State) : Host.Outcome State Fault Refusal :=
  receive s 3 f fun s => takeMessage s f fun s =>
    if fByte f 4 % 2 = 1 then
      let p : PartnerVerdict :=
        { bar := BitVec.ofNat 16 (fU f 2 2), present := fByte f 4 / 2 % 2 = 1, gest := BitVec.ofNat 3 (fByte f 4 / 4),
          summary := BitVec.ofNat 20 (fU f 5 3), elems := Vector.ofFn fun i : Fin 6 => (f[8 + i.val]?).getD 0 }
      { s with duet := { s.duet with partner := p :: s.duet.partner } }
    else s

/-- REC_A (R288): the first half is held; with at most 4 frames of the sender in flight, at most 4 halves wait. -/
def execRecA (f : FrameBytes) (s : State) : Host.Outcome State Fault Refusal :=
  receive s 4 f fun s => takeMessage s f fun s =>
    { s with duet := { s.duet with
      halves := ((fSeq f, BitVec.ofNat 4 (fByte f 2), BitVec.ofNat 8 (fByte f 3), Vector.ofFn fun i : Fin 10 => (f[4 + i.val]?).getD 0)
        :: s.duet.halves).take 4 } }

/-- REC_B (R272, R281, R288, R306): with its first half it is a record, which the leader keeps for its next slot 444; at a follower it is a
drop. -/
def execRecB (f : FrameBytes) (s : State) : Host.Outcome State Fault Refusal :=
  receive s 5 f fun s => takeMessage s f fun s =>
    match s.duet.halves.find? fun h => fSeq f = h.1 + 1 with
    | some (q, type, flags, first) =>
      let s := { s with duet := { s.duet with halves := s.duet.halves.filter fun h => h.1 ≠ q } }
      if s.leader then
        { s with duet := { s.duet with relayed := s.duet.relayed ++ [(type, flags, first.toList ++ fBytes f 2 10)] } }
      else countDrop s 1
    | none => s

/-- WAKE (R302): its window is added. -/
def execWake (f : FrameBytes) (s : State) : Host.Outcome State Fault Refusal :=
  receive s 6 f fun s => takeMessage s f fun s =>
    { s with duet := { s.duet with wakes := (BitVec.ofNat 16 (fU f 2 2), BitVec.ofNat 8 (fByte f 4)) :: s.duet.wakes } }

/-- SWAP_REQ (R304): the ROLE = 0 module holds one of its own epoch. -/
def execSwapReq (f : FrameBytes) (s : State) : Host.Outcome State Fault Refusal :=
  receive s 7 f fun s => takeMessage s f fun s =>
    if !s.role && fByte f 2 = s.duet.epoch.toNat then { s with duet := { s.duet with held := true } } else s

/-- SWAP_GO (R306): the ROLE = 1 module commits; the bar is the handover bar. -/
def execSwapGo (f : FrameBytes) (s : State) : Host.Outcome State Fault Refusal :=
  receive s 8 f fun s => takeMessage s f fun s =>
    if s.role then { s with duet := { s.duet with commit := some (BitVec.ofNat 16 (fU f 3 2)), handover := true } } else s

/-- NOTICE (R303): the link goes down, and the next slot 444 chooses Tacet. -/
def execNotice (f : FrameBytes) (s : State) : Host.Outcome State Fault Refusal :=
  receive s 9 f fun s => takeMessage s f fun s =>
    let s := linkDown s .seeking
    { s with duet := { s.duet with noticed := true } }

/-- INVALID_FRAME (R284): a frame that the receiver could not take as 16 bytes, or one found invalid. -/
def execInvalidFrame (e : FrameError) (s : State) : Host.Outcome State Fault Refusal :=
  if s.duet.link = .off then .next s
  else if s.inject 12 then .next (dropFrame s .crc true)
  else .next (dropFrame s e false)

/-! ### Sending (R287, R293 to R295) -/

/-- HEARTBEAT_SEND: slot 64q. -/
def execHeartbeatSend (s : State) : Host.Outcome State Fault Refusal :=
  if s.metro.due.contains .heartbeat then .next (endFixed (sendLink (dropDue s .heartbeat) 2)) else .next s

/-- The body of a message at its first transmission: WBAR is the bar of sending. -/
def messageBody (s : State) (m : Msg) : List Byte :=
  if m.type = 6 then leBytes 2 s.aon.bar.toNat ++ m.body.toList.drop 2 else m.body.toList

/-- The first released message frame is transmitted: it takes the next sequence number and the oldest acknowledgement due; with a SWAP_GO
the bar becomes the handover bar (R305). With the NOTICE of Tacet entry, or of a reset, step 3 ends (Table 04-6, R90). -/
def sendMessage (s : State) (m : Msg) (rest : List Msg) : State :=
  let d := s.duet
  let f := frameOf s m.type d.txSeq d.acks.head? (messageBody s m)
  let go := m.type = 8
  let s := { s with duet := { d with
      q3 := rest, acks := d.acks.drop 1, txSeq := d.txSeq + 1, flight := d.flight ++ [⟨f, 0, false⟩], tx := some f
      goSent := if go then some (BitVec.ofNat 16 (fU f 3 2)) else d.goSent
      handover := d.handover || go } }
  if s.inStep3 && m.type = 9 then leaveStep3 s else s

/-- The released message frame that may be transmitted now: the first of Q3, while fewer than 4 are unacknowledged. -/
def nextMessage (s : State) : Option (Msg × List Msg) :=
  match s.duet.q3 with
  | m :: r => if m.released && s.duet.flight.length < 4 then some (m, r) else none
  | [] => none

/-- The retransmissions that wait, in transmission order: the frame and the list with its count advanced. -/
def retransmit : List Flight → Option (FrameBytes × List Flight)
  | [] => none
  | x :: r =>
    if x.due then some (x.bytes, { x with tries := x.tries + 1, due := false } :: r)
    else (retransmit r).map fun p => (p.1, x :: p.2)

/-- FRAME_TRANSMIT (R293): acknowledgements, then retransmissions, then released message frames; a link frame due at its boundary goes first.
An acknowledgement rides on a message frame that is due, else on a HEARTBEAT (R294). -/
def execFrameTransmit (s : State) : Host.Outcome State Fault Refusal :=
  if s.duet.link = .off || s.metro.due.contains .heartbeat then .next s
  else if s.duet.link = .seeking then .next (if s.duet.acks ≠ [] then sendLink s 2 else s)
  else match retransmit s.duet.flight with
    | some (f, fl) =>
      if s.duet.acks ≠ [] then .next (sendLink s 2)
      else .next { s with duet := { s.duet with flight := fl, tx := some f } }
    | none =>
      match nextMessage s with
      | some (m, r) => .next (sendMessage s m r)
      | none => if s.duet.acks ≠ [] then .next (sendLink s 2) else .next s

/-- RETRANSMIT_TIMEOUT (R295, R308): a beat has passed since the latest transmission of the frame with this number. After the third
retransmission it is given up and counted as a drop; a SWAP_GO that is given up takes the link down. -/
def execRetransmitTimeout (seq : BitVec 4) (s : State) : Host.Outcome State Fault Refusal :=
  match s.duet.flight.find? fun x => fSeq x.bytes = seq && !x.due with
  | some x =>
    if s.duet.link ≠ .up then .next s
    else if x.tries < 3 then
      let mark (y : Flight) : Flight := if fSeq y.bytes = seq then { y with due := true } else y
      .next { s with duet := { s.duet with flight := s.duet.flight.map mark } }
    else
      let s := countDrop { s with duet := { s.duet with flight := s.duet.flight.filter fun y => fSeq y.bytes ≠ seq } } 1
      .next (if fType x.bytes = 8 then linkDown s .seeking else s)
  | none => .next s

/-- PARTNER_SILENCE_TIMEOUT (R297): no valid frame for that long; the link goes down, and detector 13 reports the frames that it cancels. -/
def execPartnerSilenceTimeout (s : State) : Host.Outcome State Fault Refusal :=
  if s.duet.link = .up && silenceLimit s ≤ s.duet.quiet then .next (linkDown (trip s 13 false (BitVec.ofNat 32 (s.duet.flight.length % 256))) .seeking) else .next s

/-- SWAP_GO_WITHDRAW (R305): a SWAP_GO that has not begun by slot 32 is withdrawn. -/
def execSwapGoWithdraw (s : State) : Host.Outcome State Fault Refusal :=
  if s.metro.due.contains .withdraw then
    let s := dropDue s .withdraw
    .next { s with duet := { s.duet with q3 := s.duet.q3.filter fun m => m.type ≠ 8 } }
  else .next s

end Sys2Proof.Machine
end

