-- ==== Sys2Proof/Machine/Exec.lean ====
section
/-!
DEFINITION. Schedule entries, queues, dispatch and completion of operations, and the engines' access to memory
(R109, R136 to R148, R153, R195).
-/
namespace Sys2Proof.Machine

/-! ### Access rights (Table 07-2, R139, R82) -/

/-- A byte of tensor SRAM or the held store that an engine or a helper may reach in the state in force. -/
def ramOpen (s : State) (a : Nat) : Bool :=
  (sramBase ≤ a && a < heldBase && bitAt (stBanks s s.st) (bankOf a)) || (heldBase ≤ a && a < heldEnd && stHeld s s.st)

/-- A data read by the Tutti array or a helper: a refused access returns 0. A helper's address is a base plus an offset that may pass 2^32; it does not
wrap there, so that it lies beyond the memory and is refused (the model's choice, log entry 90). -/
def engRead (s : State) (a : Nat) : Byte := if ramOpen s a then s.ram.read a else 0

def engU (s : State) (a len : Nat) : Nat := leNat ((List.range len).map fun k => engRead s (a + k))

/-- A data write by the Tutti array or a helper: the refused words are discarded (R139). -/
def engWrite (s : State) (a : Nat) (bs : List Byte) : State :=
  (byWord a bs).foldl (fun s w => if ramOpen s (8 * w.1) then { s with ram := s.ram.store w.1 w.2 } else s) s

/-! ### Schedule entries (Table 05-5) -/

/-- The entry at the head of the slot's list, when it has this kind and argument and the slot's fixed actions are done (R107, R109). -/
def entryIs (s : State) (kind : Nat) (arg : BitVec 16) : Bool :=
  s.metro.due = [] && match s.metro.issue with
    | e :: _ => e.kind = kind && e.arg = arg
    | [] => false

def popEntry (s : State) : State := { s with metro := { s.metro with issue := s.metro.issue.drop 1 } }

/-- A post whose reads, of the verdict map's header or a sync block and of the verdict vector, find the errors `ups` (R333). -/
def postReading (s : State) (cue inc : Nat) (ups : List Upset) : State := withRomErrors s ups fun s => post s cue inc ups

/-- POST (R145, R146). -/
def execPost (cue : BitVec 7) (inc : BitVec 9) (ups : List Upset) (s : State) : Host.Outcome State Fault Refusal :=
  if entryIs s 0 (BitVec.ofNat 16 (cue.toNat + 128 * inc.toNat)) then .next (postReading (popEntry s) cue.toNat inc.toNat ups) else .next s

/-- LAUNCH_T (R147): the descriptor is appended to Q0; a full Q0 is an overrun and the entry is discarded (R153). -/
def execLaunchT (index : BitVec 16) (s : State) : Host.Outcome State Fault Refusal :=
  if entryIs s 1 index then
    let s := popEntry s
    if s.exec.q0.length ≥ 32 then .next (overrun s (overrunDetail index.toNat 0 true s.metro.slot))
    else .next { s with exec := { s.exec with q0 := s.exec.q0 ++ [⟨index.toNat, s.metro.slot⟩] } }
  else .next s

/-- LAUNCH_S (R147). -/
def execLaunchS (index : BitVec 16) (s : State) : Host.Outcome State Fault Refusal :=
  if entryIs s 2 index then
    let s := popEntry s
    if s.exec.q1.length ≥ 32 then .next (overrun s (overrunDetail index.toNat 1 true s.metro.slot))
    else .next { s with exec := { s.exec with q1 := s.exec.q1 ++ [⟨index.toNat, s.metro.slot⟩] } }
  else .next s

/-- SAMPLE (R143): the pin's level is latched into its bit of the pin-sample word. -/
def execSample (chg level : Bool) (s : State) : Host.Outcome State Fault Refusal :=
  if entryIs s 3 (if chg then 1 else 0) then
    let s := popEntry s
    let bit : BitVec 32 := if chg then 2 else 1
    .next { s with exec := { s.exec with pins := if level then s.exec.pins ||| bit else s.exec.pins &&& ~~~bit } }
  else .next s

/-- MARK (R111): a run begins or ends; the slot's own over-scaling was decided with its boundary. -/
def execMark (begins : Bool) (s : State) : Host.Outcome State Fault Refusal :=
  if entryIs s 4 (if begins then 1 else 0) then
    let s := popEntry s
    .next { s with metro := { s.metro with run := begins } }
  else .next s

/-! ### Dispatch (R148, R191, R194) -/

def waitMet (s : State) (w : Wait) : Bool := !w.active || w.target ≤ ((s.exec.cues[w.cue]?).getD 0).toNat

def waitsMet (s : State) (off : Nat) : Bool := waitMet s (syncAt s off).a && waitMet s (syncAt s off).b

/-- Sections of a kernel, 1 to 32. -/
def recSections (s : State) (i : Nat) : Nat := field (bodyU s (recOff s i + 12) 4) 2 5 + 1

/-- The free contexts, lowest number first: R194 leaves the choice open (log entry 76). -/
def freeContexts (s : State) : List Ctx := (List.finRange 32).filter fun c => (s.exec.sections[c]).isNone

/-- A section as it starts (R191). -/
def Section.start (op sec : Nat) : Section :=
  { op := op, sec := sec, lanes := Vector.replicate 16 Lane.zero, active := 0xFFFF, live := 0xFFFF, stack := [], pc := 0,
    lcs := Vector.replicate 4 0, loads := [], ended := false }

/-- A kernel takes contexts for its sections, numbered from 0. -/
def startKernel (s : State) (index : Nat) (cs : List Ctx) : State :=
  let x := s.exec
  let secs := cs.zipIdx.foldl (fun v c => v.setIfInBounds c.1.val (some (Section.start x.opId c.2))) x.sections
  { s with exec := { x with soli := x.soli ++ [⟨x.opId, index, 0, cs⟩], opId := x.opId + 1, sections := secs } }

/-- The head of Q0 dispatches to the Tutti array, when its waits are met and fewer than 8 descriptors are in flight. -/
def dispatchTutti (s : State) : State :=
  let x := s.exec
  match x.q0 with
  | e :: r =>
    if waitsMet s (descOff s e.index) && x.tutti.length < 8 then { s with exec := { x with q0 := r, tutti := x.tutti ++ [e.index] } } else s
  | [] => s

/-- The head of Q1 dispatches to the Soli engine, while that has a clock (R79) and fewer than 8 operations are in flight: a kernel to free contexts, a
helper job while no other of its kind runs. -/
def dispatchSoli (s : State) : State :=
  let x := s.exec
  match x.q1 with
  | e :: r =>
    if waitsMet s (recOff s e.index) && x.soli.length < 8 && stSclk s s.st ≠ 0 then
      let s' := { s with exec := { x with q1 := r } }
      let k := recKind s e.index
      if k = 0 then
        let n := recSections s e.index
        let free := freeContexts s
        if n ≤ free.length then startKernel s' e.index (free.take n) else s
      else if x.soli.any (fun o => o.kind = k) then s
      else { s' with exec := { s'.exec with soli := x.soli ++ [⟨x.opId, e.index, k, []⟩], opId := x.opId + 1 } }
    else s
  | [] => s

/-- QUEUE_DISPATCH (R148): the head of Q0 or Q1 dispatches, with the errors that the Conductor's reads of its entry find (R333); an empty queue reads
nothing. -/
def execQueueDispatch (q : QueueRead) (s : State) : Host.Outcome State Fault Refusal :=
  if q.soli then .next (if s.exec.q1 = [] then s else withRomErrors s q.ups dispatchSoli)
  else .next (if s.exec.q0 = [] then s else withRomErrors s q.ups dispatchTutti)

/-! ### Completion (R146) -/

/-- The errors that an operation's reads find: in memory as `takeUpset` says, in ROM or OTP an uncorrectable one trips detector 8
(Table 17-1). The flag says that one was uncorrectable, so that the operation does not complete (R333). -/
def opUpsets (s : State) (ups : List Upset) : State × Bool :=
  let s := countInjected6 s 0
  ups.foldl (fun (p : State × Bool) u =>
    if inRom u.addr then
      if u.multi then (eccTrip p.1 8 (u.addr / 8 * 8), true) else p
    else
      let t := takeUpset p.1 u
      (t, p.2 || (u.multi && inRam u.addr && p.1.ram.flags.contains (u.addr / 8)))) (s, false)

/-- The completion post of an operation's sync block. -/
def postSync (s : State) (off : Nat) (ups : List Upset) : State :=
  let y := syncAt s off
  post s y.postCue y.postInc ups

/-- A Soli operation leaves the engine and its contexts are freed. -/
def retireSoli (s : State) (o : SoliOp) : State :=
  { s with exec := { s.exec with
      soli := s.exec.soli.filter fun p => p.id ≠ o.id
      sections := o.ctxs.foldl (fun v c => v.setIfInBounds c.val none) s.exec.sections } }

/-- Every section of a kernel has ended and its loads have returned. -/
def kernelDone (s : State) (o : SoliOp) : Bool :=
  o.ctxs.all fun c => (s.exec.sections[c]).all fun x => x.ended && x.loads.isEmpty

/-- KERNEL_COMPLETE (R195): the kernel posts and frees its contexts. After an overrun an operation does not complete (R154). -/
def execKernelComplete (k : Nat) (ups : List Upset) (s : State) : Host.Outcome State Fault Refusal :=
  match s.exec.soli[k]? with
  | some o =>
    if o.kind = 0 && kernelDone s o && !s.exec.abandon then
      .next (withRomErrors s ups fun s => postSync (retireSoli s o) (recOff s o.index) ups)
    else .next s
  | none => .next s

/-- The helper job in flight of a kind, 1 crop, 2 sieve, 3 attention. -/
def helperJob (s : State) (kind : Nat) : Option SoliOp := s.exec.soli.find? fun o => o.kind = kind

/-- A helper job ends: its reads' errors, its writes and counters, its post (R146, R206). -/
def completeHelper (s : State) (kind : Nat) (ups : List Upset) (work : State → Nat → State) : State :=
  match helperJob s kind with
  | some o =>
    if s.exec.abandon then s
    else
      let (s, failed) := opUpsets s ups
      if failed then s else postSync (retireSoli (work s (recOff s o.index)) o) (recOff s o.index) []
  | none => s

/-- The effective level of an operation (R228): RUBATO of the bar-context word, limited by RLIM. -/
def level (s : State) (rlim : Nat) : Nat := min (field s.exec.ctx.toNat 4 4) rlim

end Sys2Proof.Machine
end

