-- ==== Sys2Proof/Machine/Flailo.lean ====
section
/-!
DEFINITION. Flailo, the factory protocol of an unsealed part (R324 to R329): programming of OTP, verification, dark and touch calibration,
reading, the seal. A command's address, length and CRC go over the wire most significant byte first, and so do the response's numbers
(log entry 17).
-/
namespace Sys2Proof.Machine

/-! ### Wire protocol -/

/-- Status codes (Table 16-11). -/
inductive Status where
  | ok | badCrc | badCmd | badArg | differs | digestBad | notDark | notClear | noLed | vppLow | notReady | writeFail
deriving DecidableEq, Repr

def Status.code (x : Status) : Byte :=
  match x with
  | .ok => 0x00
  | .badCrc => 0x01
  | .badCmd => 0x02
  | .badArg => 0x03
  | .differs => 0x04
  | .digestBad => 0x05
  | .notDark => 0x06
  | .notClear => 0x07
  | .noLed => 0x08
  | .vppLow => 0x09
  | .notReady => 0x0A
  | .writeFail => 0x0B

/-- The response: status, bytes, and a CRC over both. -/
def respond (s : State) (x : Status) (bs : List Byte) : State :=
  let r := x.code :: bs
  { s with flailo := { s.flailo with response := r ++ beBytes 2 (crc16 r) } }

/-- The bytes of a command that its CRC covers. -/
def commandBytes (op : Byte) (h : FlailoHead) : List Byte := op :: (beBytes 3 h.addr.toNat ++ beBytes 2 h.len.toNat ++ h.data)

/-- A command is taken in Flailo mode on an unsealed part; its CRC is checked first, then its length against `lenOk`. -/
def command (s : State) (op : Byte) (h : FlailoHead) (lenOk : Bool) (act : State → State) : State :=
  if s.cond.phase ≠ .flailo || s.nvm.sealed then s
  else if crc16 (commandBytes op h) ≠ h.crc.toNat then respond s .badCrc []
  else if !lenOk then respond s .badArg []
  else act s

/-- A well-formed command's next state; an ill-formed one is refused. -/
def wellFormed (i : Instr) (name : String) (s : State) : Host.Outcome State Fault Refusal :=
  if i.wf then .next s else .refused (.illFormed name)

/-! ### Programming (R325) -/

/-- The words to write: word number and its 8 bytes. -/
abbrev Words := List (Nat × List Byte)

/-- Bytes from an address on, cut into 64-bit words. -/
def wordsOf (a : Nat) (bs : List Byte) : Words :=
  (List.range (bs.length / 8)).map fun k => (a / 8 + k, (bs.drop (8 * k)).take 8)

/-- One unmarked word is programmed; a word that fails its read-back keeps its mark and holds bytes that the manual does not give. -/
def programWord (n : Nvm) (w : Nat) (bs : List Byte) (fails : Bool) : Nvm :=
  let bytes := if fails then (List.range 8).map fun i => Config.failedByte (8 * w + i) else bs
  { n with
    otp := (bytes.mapIdx fun i b => (8 * w + i, b)).foldl (fun c x => cellSet c x.1 x.2) n.otp
    marks := numInsert n.marks w }

/-- Comparing, then programming (R325). `fails`: the words that fail their read-back. -/
def program (s : State) (ws : Words) (vpp : Nat) (fails : List Nat) : State :=
  let n := s.nvm
  if ws.any fun w => n.marks.contains w.1 && n.bytes (8 * w.1) 8 ≠ w.2 then respond s .differs []
  else
    let todo := ws.filter fun w => !n.marks.contains w.1
    if todo ≠ [] && (vpp < 6800 || 7200 < vpp) then respond s .vppLow []
    else
      let n := todo.foldl (fun n w => programWord n w.1 w.2 (fails.contains w.1)) n
      respond { s with nvm := n } (if todo.any fun w => fails.contains w.1 then .writeFail else .ok) []

/-- LOAD. `vpp` in mV; `fails`: word numbers. -/
def execLoad (h : FlailoHead) (vpp : Nat) (fails : List Nat) (s : State) : Host.Outcome State Fault Refusal :=
  let a := h.addr.toNat
  let n := h.len.toNat
  wellFormed (.load h vpp fails) "LOAD" <| command s 0x01 h (8 ≤ n && n ≤ 4096 && n % 8 = 0 && a % 8 = 0 && a + n ≤ 0x200000) fun s =>
    program s (wordsOf (otpBase + a) h.data) vpp fails

/-! ### VERIFY -/

/-- The state with another image selected, to check that image. -/
def selecting (s : State) (sel : BitVec 3) : State := { s with boot := { s.boot with straps := { s.boot.straps with sel := sel } } }

/-- VERIFY: the computed digest of a slot. -/
def execVerify (h : FlailoHead) (s : State) : Host.Outcome State Fault Refusal :=
  wellFormed (.verify h) "VERIFY" <| command s 0x02 h (h.len = 0) fun s =>
    let t := selecting s (if h.addr.getLsbD 20 then 7 else 6)
    if slotEmpty t || !headerOk t then respond s .digestBad ((List.range 32).map Config.digestOfNoBody)
    else respond s (if (imageFault t false).isNone then .ok else .digestBad) (sha256 (bodyBytes t 0 (bodyLen t)))

/-! ### Calibration (R326, R327) -/

/-- One of DARK_CAL's bars: every pixel's code, corrected by B_eff, is added to the pixel's sum, and the bar's black rows move B_eff (R127,
R128). -/
def darkBar (p : Plane) (x : Nat × List (List Nat)) (bar : List (List Code) × List Code) : Nat × List (List Nat) :=
  (blackStep x.1 (blackMean ((bar.2.map (·.toNat)).sum) p),
   List.zipWith (List.zipWith fun (a : Nat) c => a + blackCorrect x.1 c) x.2 bar.1)

/-- B_eff after DARK_CAL's bars, and row by row the sum of the corrected value of each pixel over them. -/
def darkBars (p : Plane) (x : DarkFrames) : Nat × List (List Nat) :=
  x.bars.foldl (darkBar p)
    (blackMean ((x.seed.map (·.toNat)).sum) p, List.replicate (planeHeight p) (List.replicate (planeWidth p) 0))

/-- The staged values of a plane after DARK_CAL: offsets, gains, defects, plane mean in 1/16 LSB. `sums`: row by row, each pixel's sum over the
16 bars. -/
def darkStage (p : Plane) (sums : List (List Nat)) (resp : List Nat) : List Int × List Int × List (Nat × Nat × Nat × Nat) × Nat :=
  let w := planeWidth p
  let h := planeHeight p
  let cols : List Nat := sums.foldl (List.zipWith (· + ·)) (List.replicate w 0)
  let total := cols.sum
  let rsum := resp.sum
  let pn := match p with
    | .w => 0
    | .h => 1
  let offs := cols.map fun (v : Nat) => clampInt (roundDiv (8 * ((v : Int) * (w : Nat) - (total : Nat))) (16 * h * w)) (-128) 127
  let gains := resp.mapIdx fun c (r : Nat) =>
    clampInt (if r = 0 then Config.darkGainNoResponse c else roundDiv (1024 * ((rsum : Int) - w * r)) (w * r)) (-128) 127
  let defs := (sums.mapIdx fun y (r : List Nat) => ((r.zip cols).mapIdx fun x (q : Nat × Nat) =>
    let d := ((q.1 : Int) * h - q.2).natAbs
    if 256 * h < d then [(d * (1600 / h), pn, y, x)] else []).flatten).flatten
  (offs, gains, defs, (roundDiv total (h * w)).toNat)

/-- By largest difference, then by plane, row and column. -/
def defectBefore (a b : Nat × Nat × Nat × Nat) : Bool :=
  b.1 < a.1 || (a.1 = b.1 && (a.2.1 < b.2.1 || (a.2.1 = b.2.1 && (a.2.2.1 < b.2.2.1 || (a.2.2.1 = b.2.2.1 && a.2.2.2 ≤ b.2.2.2)))))

def defectInsert (a : Nat × Nat × Nat × Nat) : List (Nat × Nat × Nat × Nat) → List (Nat × Nat × Nat × Nat)
  | [] => [a]
  | b :: r => if defectBefore a b then a :: b :: r else b :: defectInsert a r

/-- At most 512 defects across both planes. -/
def mergeDefects (old new : List (Nat × Nat × Nat × Nat)) : List (Nat × Nat × Nat × Nat) :=
  new.foldl (fun l d => (defectInsert d l).take 512) old

/-- The staged data with a plane's own replaced. -/
def stagePlane (x : Staged) (p : Plane) (d : Option (List Int × List Int)) (defs : List (Nat × Nat × Nat × Nat)) : Staged :=
  let pn := match p with
    | .w => 0
    | .h => 1
  let x := { x with defects := mergeDefects (x.defects.filter fun e => e.2.1 ≠ pn) defs }
  match p with
  | .w => { x with darkW := d }
  | .h => { x with darkH := d }

/-- What DARK_CAL stages and answers for a plane with these sums over 16 bars. -/
def stageDark (s : State) (p : Plane) (sums : List (List Nat)) (resp : List Nat) : State :=
  let (offs, gains, defs, mean) := darkStage p sums resp
  if 24 * (16 * planeHeight p * planeWidth p) < (sums.map List.sum).sum then
    respond { s with flailo := { s.flailo with staged := stagePlane s.flailo.staged p none [] } } .notDark []
  else
    let x := stagePlane s.flailo.staged p (some (offs, gains)) defs
    let pn := match p with
      | .w => 0
      | .h => 1
    let count := (x.defects.filter fun e => e.2.1 = pn).length
    respond { s with flailo := { s.flailo with staged := x } } .ok (beBytes 2 mean ++ beBytes 2 count)

/-- DARK_CAL (R326): 16 bars are read unbinned at EXP 3576 and gain 1×. `led`: the interlock of R32 is met. -/
def execDarkCal (h : FlailoHead) (led : Bool) (frames : DarkFrames) (resp : List Nat) (s : State) : Host.Outcome State Fault Refusal :=
  wellFormed (.darkCal h led frames resp) "DARK_CAL" <| command s 0x03 h (h.len = 0) fun s =>
    if !led then respond s .noLed []
    else
      let (black, sums) := darkBars h.plane frames
      let x := s.plane h.plane
      stageDark (s.setPlane h.plane { x with bin := 1, black := black, used := some ⟨3576, 0⟩ }) h.plane sums resp

/-- Inserting into a rising list. -/
def sortInsert (a : Nat) : List Nat → List Nat
  | [] => [a]
  | b :: r => if a ≤ b then a :: b :: r else b :: sortInsert a r

/-- Twice the median of a drive row's 16 counts: the sum of the two in the middle (PRESUMED, log entry 18). -/
def rowMedian2 (l : List Nat) : Nat :=
  let r := l.foldr sortInsert []
  r.getD 7 0 + r.getD 8 0

/-- TOUCH_CAL (R327): `scans` are the 64 scans' 128 measurements. -/
def execTouchCal (h : FlailoHead) (scans : List (List Nat)) (s : State) : Host.Outcome State Fault Refusal :=
  wellFormed (.touchCal h scans) "TOUCH_CAL" <| command s 0x04 h (h.len = 0) fun s =>
    let node (n : Nat) : List Nat := scans.map fun r => r.getD n 0
    let means := (List.range 128).map fun n => (roundDiv ((node n).sum : Nat) 64).toNat
    let medians := (List.range 8).map fun i => rowMedian2 ((means.drop (16 * i)).take 16)
    let spread (n : Nat) : Bool := let l := node n; l.foldl min (l.headD 0) + 40 < l.foldl max 0
    let low (n : Nat) : Bool := let m := means.getD n 0; 800 ≤ m && 200 * m < 85 * medians.getD (n / 16) 0
    if (List.range 128).any fun n => low n || spread n then respond s .notClear []
    else
      let refs := means.map fun m => if m < 800 then 0 else m
      respond { s with flailo := { s.flailo with staged := { s.flailo.staged with touch := some refs } } } .ok
        [byte (refs.filter (· = 0)).length]

/-! ### CAL_WRITE (R328, Table 16-12) -/

def signedBytes (l : List Int) : List Byte := l.map fun v => BitVec.ofInt 8 v

/-- A defect-list entry (R132). -/
def defectWord (d : Nat × Nat × Nat × Nat) : List Byte := leBytes 4 (d.2.2.2 + 1024 * d.2.2.1 + 524288 * d.2.1 + 2147483648)

/-- Zeros up to a multiple of 8 bytes. -/
def padWord (bs : List Byte) : List Byte := bs ++ List.replicate ((8 - bs.length % 8) % 8) 0

/-- The calibration words of what is staged, the header's first. -/
def stagedWords (x : Staged) : Words :=
  let dark (d : Option (List Int × List Int)) (o g : Nat) : Words :=
    d.elim [] fun p => wordsOf (calBase + o) (signedBytes p.1) ++ wordsOf (calBase + g) (signedBytes p.2)
  let flags := (if x.darkW.isSome then 1 else 0) + (if x.darkH.isSome then 2 else 0) + (if x.touch.isSome then 4 else 0)
  if flags = 0 then []
  else
    wordsOf calBase ([byte flags, 0] ++ leBytes 2 x.defects.length ++ [0, 0, 0, 0])
      ++ dark x.darkW 0x10 0x290 ++ dark x.darkH 0x510 0x650
      ++ wordsOf (calBase + 0x790) (padWord (x.defects.flatMap defectWord))
      ++ x.touch.elim [] fun t => wordsOf (calBase + 0xF90) (t.flatMap (leBytes 2))

/-- CAL_WRITE. -/
def execCalWrite (h : FlailoHead) (vpp : Nat) (fails : List Nat) (s : State) : Host.Outcome State Fault Refusal :=
  wellFormed (.calWrite h vpp fails) "CAL_WRITE" <| command s 0x05 h (h.len = 0) fun s => program s (stagedWords s.flailo.staged) vpp fails

/-! ### READ, SEAL, INFO -/

/-- The shared-space address of a READ, when its address and length are allowed (Table 16-10). -/
def readAddress (a n : Nat) : Option Nat :=
  if n = 0 || 4096 < n then none
  else if bitAt a 23 then (if field a 13 10 = 0 && field a 0 13 + n ≤ 0x2000 then some (calBase + field a 0 13) else none)
  else if field a 21 2 = 0 && field a 0 21 + n ≤ 0x200000 then some (otpBase + field a 0 21) else none

/-- READ. -/
def execRead (h : FlailoHead) (s : State) : Host.Outcome State Fault Refusal :=
  wellFormed (.read h) "READ" <| command s 0x06 h true fun s =>
    match readAddress h.addr.toNat h.len.toNat with
    | some a => respond s .ok (s.nvm.bytes a h.len.toNat)
    | none => respond s .badArg []

/-- SEAL (R329): the fuse blows once dark W, dark H and touch are written. -/
def execSeal (h : FlailoHead) (s : State) : Host.Outcome State Fault Refusal :=
  wellFormed (.seal h) "SEAL" <| command s 0x07 h (h.len = 0) fun s =>
    if (s.nvm.cal 0).toNat % 8 = 7 then respond { s with nvm := { s.nvm with sealed := true } } .ok [] else respond s .notReady []

/-- INFO. -/
def execInfo (h : FlailoHead) (s : State) : Host.Outcome State Fault Refusal :=
  wellFormed (.info h) "INFO" <| command s 0x08 h (h.len = 0) fun s =>
    let used (sel : Nat) : Bool := s.nvm.marks.contains (imageBase sel / 8)
    respond s .ok (s.nvm.bytes calBase 16 ++ [Config.infoStates s.nvm.sealed (used 6) (used 7)])

/-- FLAILO_UNKNOWN_OPCODE: an opcode outside Table 16-10 answers BAD_CMD. -/
def execFlailoUnknownOpcode (op : Byte) (h : FlailoHead) (s : State) : Host.Outcome State Fault Refusal :=
  wellFormed (.flailoUnknownOpcode op h) "FLAILO_UNKNOWN_OPCODE"
    (if 1 ≤ op.toNat && op.toNat ≤ 8 then s else command s op h true fun s => respond s .badCmd [])

end Sys2Proof.Machine
end

