-- ==== Sys2Proof/Decode.lean ====
section
/-!
DEFINITION. The block has no instruction decoder of a processor's kind and its command table gives no bits, so `decodeTableWord` reads
none. The instruction words of the Soli engine are data that the engine fetches: `soliDecode` reads one (R196, R197, Tables 10-2 and
10-3) and `soliEncode` writes one.
-/
namespace Sys2Proof

/-- The command that a word spells by the table's bits: the table gives no row bits. -/
def decodeTableWord (_nbits _w : Nat) : Option Instr := none

namespace Machine

/-! ### Fields of a Soli word (Table 10-2) -/

def guardOf (w : Nat) : Guard := ⟨BitVec.ofNat 3 (field w 0 3), bitAt w 3⟩

def regD (w : Nat) : Reg := BitVec.ofNat 5 (field w 21 5)
def regA (w : Nat) : Reg := BitVec.ofNat 5 (field w 16 5)
def regB (w : Nat) : Reg := BitVec.ofNat 5 (field w 11 5)

/-- The word acts as END with an always-true guard (R197). -/
def invalidWord (c : Ctx) : Instr := .endThreads c Guard.always []

def condOf (n : Nat) : Option Cond :=
  match n with
  | 0 => some .eq
  | 1 => some .ne
  | 2 => some .lt
  | 3 => some .ge
  | 4 => some .ltu
  | 5 => some .geu
  | _ => none

def lopOf (n : Nat) : Lop :=
  match n with
  | 0 => .and
  | 1 => .or
  | 2 => .xor
  | _ => .andNot

/-- A word of format R without S: bits [10:4] must be 0. -/
def wordR (c : Ctx) (w : Nat) (i : Instr) : Instr := if field w 4 7 = 0 then i else invalidWord c

/-- A word of format R whose B must be 0. -/
def wordRA (c : Ctx) (w : Nat) (i : Instr) : Instr := if field w 4 12 = 0 then i else invalidWord c

/-- A shift by an immediate: IMM[11:5] must be 0. -/
def wordSh (c : Ctx) (w : Nat) (i : Instr) : Instr := if field w 9 7 = 0 then i else invalidWord c

/-- A store: the LC field is 0. -/
def wordSt (c : Ctx) (w : Nat) (i : Instr) : Instr := if field w 4 2 = 0 then i else invalidWord c

/-- The instruction that a fetched word spells for the section in context `c` (Tables 10-2, 10-3). -/
def soliDecode (c : Ctx) (w : Nat) : Instr :=
  let g := guardOf w
  let d := regD w
  let a := regA w
  let b := regB w
  let off10 := BitVec.ofNat 10 (field w 6 10)
  let lc := BitVec.ofNat 2 (field w 4 2)
  let imm12 := BitVec.ofNat 12 (field w 4 12)
  let sh := BitVec.ofNat 5 (field w 4 5)
  let off22 := BitVec.ofNat 22 (field w 4 22)
  let pd := BitVec.ofNat 3 (field w 23 3)
  let ca := BitVec.ofNat 5 (field w 15 5)
  let cue := BitVec.ofNat 7 (field w 19 7)
  match field w 26 6 with
  | 0x00 => if field w 4 22 = 0 then .endThreads c g [] else invalidWord c
  | 0x01 => wordR c w (.add c g d a b)
  | 0x02 => wordR c w (.sub c g d a b)
  | 0x03 => wordR c w (.mul c g d a b)
  | 0x04 => wordR c w (.mulh c g d a b)
  | 0x05 => wordR c w (.mac c g d a b)
  | 0x06 => wordR c w (.dot4s c g d a b)
  | 0x07 => wordR c w (.dot4us c g d a b)
  | 0x08 => wordR c w (.and c g d a b)
  | 0x09 => wordR c w (.or c g d a b)
  | 0x0A => wordR c w (.xor c g d a b)
  | 0x0B => wordR c w (.shl c g d a b)
  | 0x0C => wordR c w (.shr c g d a b)
  | 0x0D => wordR c w (.sra c g d a b)
  | 0x0E => wordR c w (.min c g d a b)
  | 0x0F => wordR c w (.max c g d a b)
  | 0x10 => wordR c w (.minu c g d a b)
  | 0x11 => wordR c w (.maxu c g d a b)
  | 0x12 => wordRA c w (.abs c g d a)
  | 0x13 => wordRA c w (.lzc c g d a)
  | 0x14 => if field w 4 4 = 0 then .sel c g d a b (BitVec.ofNat 3 (field w 8 3)) else invalidWord c
  | 0x15 => wordR c w (.shfl c g d a b)
  | 0x16 => wordR c w (.rshr c g d a b)
  | 0x17 => wordR c w (.rsc c g d a b)
  | 0x18 => wordR c w (.clamp c g d a b)
  | 0x19 => .bra c g off22
  | 0x1A => if field w 0 4 = 0 then .rpush c off22 else invalidWord c
  | 0x1B => if field w 0 26 = 0 then .rsync c else invalidWord c
  | 0x1C => if field w 4 22 = 0 then .park c g else invalidWord c
  | 0x1D => .ldc c g d a off10 lc []
  | 0x20 => .addi c g d a imm12
  | 0x21 => .andi c g d a imm12
  | 0x22 => .ori c g d a imm12
  | 0x23 => .xori c g d a imm12
  | 0x24 => wordSh c w (.shli c g d a sh)
  | 0x25 => wordSh c w (.shri c g d a sh)
  | 0x26 => wordSh c w (.srai c g d a sh)
  | 0x27 => if field w 4 1 = 0 then .lui c g d (BitVec.ofNat 16 (field w 5 16)) else invalidWord c
  | 0x28 => if field w 16 5 = 0 then .sreg c g d imm12 else invalidWord c
  | 0x29 =>
    match condOf (field w 20 3) with
    | some k => if field w 4 6 = 0 then .cmp c g pd k ca (BitVec.ofNat 5 (field w 10 5)) else invalidWord c
    | none => invalidWord c
  | 0x2A =>
    match condOf (field w 20 3) with
    | some k => .cmpi c g pd k ca (BitVec.ofNat 11 (field w 4 11))
    | none => invalidWord c
  | 0x2B =>
    if field w 4 11 = 0 then
      .plog c g pd (lopOf (field w 21 2)) (BitVec.ofNat 3 (field w 18 3)) (BitVec.ofNat 3 (field w 15 3))
    else invalidWord c
  | 0x2C =>
    if field w 4 14 = 0 && field w 21 2 ≤ 1 then .vote c g pd (field w 21 2 = 1) (BitVec.ofNat 3 (field w 18 3)) else invalidWord c
  | 0x30 => .ldw c g d a off10 lc []
  | 0x31 => .ldh c g d a off10 lc []
  | 0x32 => .ldhu c g d a off10 lc []
  | 0x33 => .ldb c g d a off10 lc []
  | 0x34 => .ldbu c g d a off10 lc []
  | 0x35 => wordSt c w (.stw c g d a off10 [])
  | 0x36 => wordSt c w (.sth c g d a off10 [])
  | 0x37 => wordSt c w (.stb c g d a off10 [])
  | 0x38 =>
    if field w 16 10 = 0 && field w 6 4 = 0 then .waitlc c g (BitVec.ofNat 6 (field w 10 6)) lc else invalidWord c
  | 0x39 => wordRA c w (.exp c g d a)
  | 0x3A => wordRA c w (.rcp c g d a)
  | 0x3B => wordRA c w (.rsq c g d a)
  | 0x3C => if field w 4 10 = 0 then .cwait c g cue (BitVec.ofNat 5 (field w 14 5)) else invalidWord c
  | 0x3D =>
    if field w 4 6 = 0 && field w 10 9 ≠ 0 then .cpost c g cue (BitVec.ofNat 9 (field w 10 9)) [] else invalidWord c
  | _ => invalidWord c

/-! ### The encoder -/

def guardBits (g : Guard) : Nat := g.g.toNat + (if g.n then 8 else 0)

def condNum (k : Cond) : Nat :=
  match k with
  | .eq => 0
  | .ne => 1
  | .lt => 2
  | .ge => 3
  | .ltu => 4
  | .geu => 5

def lopNum (k : Lop) : Nat :=
  match k with
  | .and => 0
  | .or => 1
  | .xor => 2
  | .andNot => 3

/-- Formats of Table 10-2, field by field from bit 31 down. -/
def encR (op : Nat) (g : Guard) (d a b : Reg) (s : Nat) : Nat :=
  op * 2 ^ 26 + d.toNat * 2 ^ 21 + a.toNat * 2 ^ 16 + b.toNat * 2 ^ 11 + s * 2 ^ 8 + guardBits g

def encI (op : Nat) (g : Guard) (d a : Reg) (imm : Nat) : Nat :=
  op * 2 ^ 26 + d.toNat * 2 ^ 21 + a.toNat * 2 ^ 16 + imm * 2 ^ 4 + guardBits g

def encL (op : Nat) (g : Guard) (d a : Reg) (off : BitVec 10) (lc : Nat) : Nat :=
  op * 2 ^ 26 + d.toNat * 2 ^ 21 + a.toNat * 2 ^ 16 + off.toNat * 2 ^ 6 + lc * 2 ^ 4 + guardBits g

def encB (op : Nat) (g : Guard) (off : Nat) : Nat := op * 2 ^ 26 + off * 2 ^ 4 + guardBits g

def encC (op : Nat) (g : Guard) (pd : BitVec 3) (k : Cond) (a : Reg) (low : Nat) : Nat :=
  op * 2 ^ 26 + pd.toNat * 2 ^ 23 + condNum k * 2 ^ 20 + a.toNat * 2 ^ 15 + low + guardBits g

def encP (op : Nat) (g : Guard) (pd : BitVec 3) (mode : Nat) (pa pb : BitVec 3) : Nat :=
  op * 2 ^ 26 + pd.toNat * 2 ^ 23 + mode * 2 ^ 21 + pa.toNat * 2 ^ 18 + pb.toNat * 2 ^ 15 + guardBits g

/-- The word of a Soli instruction; none for any other command. -/
def soliEncode (i : Instr) : Option Nat :=
  match i with
  | .endThreads _ g _ => some (encB 0x00 g 0)
  | .add _ g d a b => some (encR 0x01 g d a b 0)
  | .sub _ g d a b => some (encR 0x02 g d a b 0)
  | .mul _ g d a b => some (encR 0x03 g d a b 0)
  | .mulh _ g d a b => some (encR 0x04 g d a b 0)
  | .mac _ g d a b => some (encR 0x05 g d a b 0)
  | .dot4s _ g d a b => some (encR 0x06 g d a b 0)
  | .dot4us _ g d a b => some (encR 0x07 g d a b 0)
  | .and _ g d a b => some (encR 0x08 g d a b 0)
  | .or _ g d a b => some (encR 0x09 g d a b 0)
  | .xor _ g d a b => some (encR 0x0A g d a b 0)
  | .shl _ g d a b => some (encR 0x0B g d a b 0)
  | .shr _ g d a b => some (encR 0x0C g d a b 0)
  | .sra _ g d a b => some (encR 0x0D g d a b 0)
  | .min _ g d a b => some (encR 0x0E g d a b 0)
  | .max _ g d a b => some (encR 0x0F g d a b 0)
  | .minu _ g d a b => some (encR 0x10 g d a b 0)
  | .maxu _ g d a b => some (encR 0x11 g d a b 0)
  | .abs _ g d a => some (encR 0x12 g d a 0 0)
  | .lzc _ g d a => some (encR 0x13 g d a 0 0)
  | .sel _ g d a b p => some (encR 0x14 g d a b p.toNat)
  | .shfl _ g d a b => some (encR 0x15 g d a b 0)
  | .rshr _ g d a b => some (encR 0x16 g d a b 0)
  | .rsc _ g d a b => some (encR 0x17 g d a b 0)
  | .clamp _ g d a b => some (encR 0x18 g d a b 0)
  | .bra _ g off => some (encB 0x19 g off.toNat)
  | .rpush _ off => some (encB 0x1A Guard.always off.toNat)
  | .rsync _ => some (encB 0x1B Guard.always 0)
  | .park _ g => some (encB 0x1C g 0)
  | .ldc _ g d a off lc _ => some (encL 0x1D g d a off lc.toNat)
  | .addi _ g d a imm => some (encI 0x20 g d a imm.toNat)
  | .andi _ g d a imm => some (encI 0x21 g d a imm.toNat)
  | .ori _ g d a imm => some (encI 0x22 g d a imm.toNat)
  | .xori _ g d a imm => some (encI 0x23 g d a imm.toNat)
  | .shli _ g d a sh => some (encI 0x24 g d a sh.toNat)
  | .shri _ g d a sh => some (encI 0x25 g d a sh.toNat)
  | .srai _ g d a sh => some (encI 0x26 g d a sh.toNat)
  | .lui _ g d imm => some (0x27 * 2 ^ 26 + d.toNat * 2 ^ 21 + imm.toNat * 2 ^ 5 + guardBits g)
  | .sreg _ g d imm => some (encI 0x28 g d 0 imm.toNat)
  | .cmp _ g pd k a b => some (encC 0x29 g pd k a (b.toNat * 2 ^ 10))
  | .cmpi _ g pd k a imm => some (encC 0x2A g pd k a (imm.toNat * 2 ^ 4))
  | .plog _ g pd op pa pb => some (encP 0x2B g pd (lopNum op) pa pb)
  | .vote _ g pd all pa => some (encP 0x2C g pd (if all then 1 else 0) pa 0)
  | .ldw _ g d a off lc _ => some (encL 0x30 g d a off lc.toNat)
  | .ldh _ g d a off lc _ => some (encL 0x31 g d a off lc.toNat)
  | .ldhu _ g d a off lc _ => some (encL 0x32 g d a off lc.toNat)
  | .ldb _ g d a off lc _ => some (encL 0x33 g d a off lc.toNat)
  | .ldbu _ g d a off lc _ => some (encL 0x34 g d a off lc.toNat)
  | .stw _ g d a off _ => some (encL 0x35 g d a off 0)
  | .sth _ g d a off _ => some (encL 0x36 g d a off 0)
  | .stb _ g d a off _ => some (encL 0x37 g d a off 0)
  | .waitlc _ g count lc => some (0x38 * 2 ^ 26 + count.toNat * 2 ^ 10 + lc.toNat * 2 ^ 4 + guardBits g)
  | .exp _ g d a => some (encR 0x39 g d a 0 0)
  | .rcp _ g d a => some (encR 0x3A g d a 0 0)
  | .rsq _ g d a => some (encR 0x3B g d a 0 0)
  | .cwait _ g cue a => some (0x3C * 2 ^ 26 + cue.toNat * 2 ^ 19 + a.toNat * 2 ^ 14 + guardBits g)
  | .cpost _ g cue inc _ => some (0x3D * 2 ^ 26 + cue.toNat * 2 ^ 19 + inc.toNat * 2 ^ 10 + guardBits g)
  | .aonPowerOn | .aonLoss | .supervisionStart _ | .resetPairReading _ _ | .selChangeDigestRead _ | .vioValid | .vioInvalid | .rstNLow
  | .vinBelowVrst | .vcoreCollapse | .latchMoment _ _ | .digestVerification _ _ | .imagerStepDone _ _ | .limiterTick | .slotBoundary _ _ _
  | .abandonAndScrub | .barStart | .exposureStart _ | .thermalSample _ | .rubatoSenseInjectSample _ _ _ | .leakSample _
  | .conductorSlot444 _ _ | .tacetEventPortDrain _ | .tacetEntryEnd | .wakeHighInTacet | .aonWakeTimer | .vwarnTrip | .fermataEntry
  | .vcoreUndervoltage | .fermataEnd | .ledInterlockMet | .ledInterlockOpen _ _ | .vpixDischarged | .privNFall | .planeRestart
  | .refClkEdge _ | .refClkTimeout | .trimRunEnd _ | .tokenRefill _ | .recordRelease | .eventPortTransaction _ | .post _ _ _ | .launchT _
  | .launchS _ | .sample _ _ | .mark _ | .queueDispatch _ | .tuttiDescriptorComplete _ | .kernelComplete _ _ | .cropJobComplete _
  | .sieveJobComplete _ | .attentionJobComplete _ | .loadReturn _ _ _ | .scanStart _ | .scanComplete _ _ | .effectStart _
  | .halfCycleEnd _ _ | .backEmfZeroCrossing _ | .brakeEnd _ | .heartbeatSend | .frameTransmit | .bar _ _ | .heartbeat _ _ | .verdict _
  | .recA _ | .recB _ | .wake _ | .swapReq _ | .swapGo _ | .notice _ | .invalidFrame _ | .retransmitTimeout _ | .partnerSilenceTimeout
  | .swapGoWithdraw | .acquisitionHoldTimeout | .load _ _ _ | .verify _ | .darkCal _ _ _ _ | .touchCal _ _ | .calWrite _ _ _ | .read _
  | .seal _ | .info _ | .privNRise | .acquisitionHoldSample _ _ | .coreBaseStepComplete | .flailoUnknownOpcode _ _ => none

end Machine

end Sys2Proof
end

