-- ==== Sys2Proof/Machine/Soli.lean ====
section
/-!
DEFINITION. The Soli engine's shared operations: registers, predicates and guards of a section's lanes (R189, R196), the fetch of an
instruction word from the code range (R139, R199), and the issue of one instruction of one section.
-/
namespace Sys2Proof.Machine

/-! ### Lanes -/

/-- v0 reads 0 (R189). -/
def Lane.reg (l : Lane) (r : Reg) : Word := if r = 0 then 0 else l.regs[r.toNat]'r.isLt

/-- Writes to v0 are discarded. -/
def Lane.setReg (l : Lane) (r : Reg) (v : Word) : Lane := if r = 0 then l else { l with regs := l.regs.set r.toNat v r.isLt }

/-- p0 reads 1. -/
def Lane.pred (l : Lane) (p : BitVec 3) : Bool := if p = 0 then true else l.preds[p.toNat]'p.isLt

/-- Writes to p0 are discarded. -/
def Lane.setPred (l : Lane) (p : BitVec 3) (v : Bool) : Lane := if p = 0 then l else { l with preds := l.preds.set p.toNat v p.isLt }

/-- The guard p[G] XOR N in a lane. -/
def Lane.guard (l : Lane) (g : Guard) : Bool := l.pred g.g != g.n

/-! ### Sections -/

/-- An instruction acts in a lane that is active and whose guard is true (R196). -/
def Section.acts (x : Section) (g : Guard) (k : Fin 16) : Bool := x.active.getLsbD k.val && x.lanes[k].guard g

/-- A lane mask. -/
def maskOf (f : Fin 16 → Bool) : BitVec 16 :=
  (List.finRange 16).foldl (fun m k => if f k then m ||| BitVec.ofNat 16 (2 ^ k.val) else m) 0

/-- m & g of R199: the lanes in which an instruction acts. -/
def Section.actMask (x : Section) (g : Guard) : BitVec 16 := maskOf (x.acts g)

/-- The lanes in which an instruction acts, lowest first. -/
def Section.actList (x : Section) (g : Guard) : List (Fin 16) := (List.finRange 16).filter (x.acts g)

/-- Every acting lane changes as `f` says; the others keep their registers and predicates. -/
def Section.onLanes (x : Section) (g : Guard) (f : Fin 16 → Lane → Lane) : Section :=
  { x with lanes := Vector.ofFn fun k => if x.acts g k then f k x.lanes[k] else x.lanes[k] }

/-- The next word follows. -/
def Section.advance (x : Section) : Section := { x with pc := x.pc + 1 }

def State.section (s : State) (c : Ctx) : Option Section := s.exec.sections[c]

def State.setSection (s : State) (c : Ctx) (x : Section) : State :=
  { s with exec := { s.exec with sections := s.exec.sections.set c.val (some x) c.isLt } }

/-! ### The kernel's launch record (Table 10-1) -/

/-- The launch record of the kernel that a section belongs to. -/
def sectionRec (s : State) (x : Section) : Nat := ((s.exec.soli.find? fun o => o.id = x.op).map (·.index)).getD 0

def codeOff (s : State) (x : Section) : Nat := bodyU s (recOff s (sectionRec s x) + 16) 4
def codeLen (s : State) (x : Section) : Nat := bodyU s (recOff s (sectionRec s x) + 20) 2
def recRlim (s : State) (x : Section) : Nat := field (bodyU s (recOff s (sectionRec s x) + 12) 4) 7 4

/-- Body offset of the word at a word index of the code range; none outside it. -/
def codeWordOff (s : State) (x : Section) (j : Int) : Option Nat :=
  if 0 ≤ j && j < codeLen s x then some (codeOff s x + 4 * j.toNat) else none

/-- The word that a section fetches: outside its code range or refused, all zero, which acts as END on the active lanes (R139, R199). -/
def fetchWord (s : State) (x : Section) : Nat :=
  match codeWordOff s x x.pc with
  | some o => bodyU s o 4
  | none => 0

/-- The instruction that the section in context `c` issues next. -/
def nextInstr (s : State) (c : Ctx) (x : Section) : Instr := soliDecode c (fetchWord s x)

/-- One instruction of one section issues: the section runs, and `i` is what it fetches. Otherwise the command does nothing. -/
def issue (s : State) (c : Ctx) (i : Instr) (f : Section → State) : Host.Outcome State Fault Refusal :=
  match s.section c with
  | some x => if !x.ended && nextInstr s c x = i then .next (f x) else .next s
  | none => .next s

/-- An instruction that writes one register in each acting lane. -/
def writeReg (s : State) (c : Ctx) (x : Section) (g : Guard) (d : Reg) (f : Fin 16 → Lane → Word) : State :=
  s.setSection c (x.onLanes g fun k l => l.setReg d (f k l)).advance

/-- An instruction that writes one predicate in each acting lane. -/
def writePred (s : State) (c : Ctx) (x : Section) (g : Guard) (d : BitVec 3) (f : Lane → Bool) : State :=
  s.setSection c (x.onLanes g fun _ l => l.setPred d (f l)).advance

/-- The three-register form: D = f A B. -/
def alu (s : State) (c : Ctx) (i : Instr) (g : Guard) (d a b : Reg) (f : Word → Word → Word) : Host.Outcome State Fault Refusal :=
  issue s c i fun x => writeReg s c x g d fun _ l => f (l.reg a) (l.reg b)

/-- The accumulator form: D = f D A B. -/
def aluAcc (s : State) (c : Ctx) (i : Instr) (g : Guard) (d a b : Reg) (f : Word → Word → Word → Word) :
    Host.Outcome State Fault Refusal :=
  issue s c i fun x => writeReg s c x g d fun _ l => f (l.reg d) (l.reg a) (l.reg b)

/-- The form with one source register: D = f A. -/
def alu1 (s : State) (c : Ctx) (i : Instr) (g : Guard) (d a : Reg) (f : Word → Word) : Host.Outcome State Fault Refusal :=
  issue s c i fun x => writeReg s c x g d fun _ l => f (l.reg a)

/-! ### Arithmetic of Table 10-3 -/

/-- High 32 bits of the signed product. -/
def mulHigh (a b : Word) : Word := BitVec.ofInt 32 (a.toInt * b.toInt / 2 ^ 32)

/-- Byte `i` of a word. -/
def wordByte (a : Word) (i : Nat) : BitVec 8 := a.extractLsb' (8 * i) 8

def dotSigned (d a b : Word) : Word :=
  d + BitVec.ofInt 32 (((List.range 4).map fun i => (wordByte a i).toInt * (wordByte b i).toInt).sum)

def dotMixed (d a b : Word) : Word :=
  d + BitVec.ofInt 32 (((List.range 4).map fun i => ((wordByte a i).toNat : Int) * (wordByte b i).toInt).sum)

/-- The shift amount B[4:0]. -/
def amount (b : Word) : Nat := b.toNat % 32

def minS (a b : Word) : Word := if a.toInt ≤ b.toInt then a else b
def maxS (a b : Word) : Word := if a.toInt ≤ b.toInt then b else a
def minU (a b : Word) : Word := if a.toNat ≤ b.toNat then a else b
def maxU (a b : Word) : Word := if a.toNat ≤ b.toNat then b else a

/-- |A|; 0x8000_0000 gives 0x8000_0000. -/
def absWord (a : Word) : Word := BitVec.ofNat 32 a.toInt.natAbs

def leadingZeros (a : Word) : Word := if a = 0 then 32 else BitVec.ofNat 32 (31 - Nat.log2 a.toNat)

/-- The two halves of B as CLAMP takes them, sign-extended. -/
def clampWord (a b : Word) : Word :=
  BitVec.ofInt 32 (min (max a.toInt (b.extractLsb' 0 16).toInt) (b.extractLsb' 16 16).toInt)

/-- RSC (R198): truncation by `k` bits, the rounded shift and the channel offset. -/
def rescaleWord (k : Nat) (a b : Word) : Word :=
  BitVec.ofInt 32 (rshift (clearLow a.toInt k) (amount b) + (b.extractLsb' 16 16).toInt)

def condHolds (k : Cond) (a b : Word) : Bool :=
  match k with
  | .eq => a = b
  | .ne => a ≠ b
  | .lt => a.toInt < b.toInt
  | .ge => b.toInt ≤ a.toInt
  | .ltu => a.toNat < b.toNat
  | .geu => b.toNat ≤ a.toNat

/-! ### The tables of R204 -/

/-- e^(-n / 256) with 96 fraction bits: the Taylor series of e^(-n / 16384), squared six times. -/
def expSeries : Nat → Nat → Nat → Int → Int → Int
  | 0, _, _, _, acc => acc
  | m + 1, k, n, term, acc => expSeries m (k + 1) n (-(term * n / (16384 * (k : Int)))) (acc + term)

def expFixed (n : Nat) : Nat :=
  let y := (expSeries 30 1 n (2 ^ 96) 0).toNat
  (List.range 6).foldl (fun v _ => v * v / 2 ^ 96) y

/-- EXP: round(32768 e^((i - 4096) / 256)) for the clamped input. -/
def expTable (a : Word) : Word :=
  let n := (-(clampInt a.toInt (-4096) 0)).toNat
  BitVec.ofNat 32 ((32768 * expFixed n + 2 ^ 95) / 2 ^ 96)

/-- Position of the highest set bit, and i. -/
def topBit (a : Word) : Nat := Nat.log2 a.toNat
def mantissaIndex (a : Word) : Nat := a.toNat * 2 ^ (31 - topBit a) / 2 ^ 22 % 512

/-- RCP. -/
def rcpTable (a : Word) : Word :=
  if a = 0 then 0xFFFFFFFF
  else BitVec.ofNat 32 ((roundDiv (2 ^ 32 : Nat) (512 + mantissaIndex a)).toNat + topBit a * 2 ^ 24)

/-- The whole part of a square root below 2^n. -/
def rootBits : Nat → Nat → Nat → Nat
  | 0, _, r => r
  | n + 1, v, r => rootBits n v (if (r + 2 ^ n) * (r + 2 ^ n) ≤ v then r + 2 ^ n else r)

/-- RSQ: round(2^23 / sqrt((1 + i / 512) 2^q)), as half of the whole root of four times the square, rounded up. -/
def rsqTable (a : Word) : Word :=
  if a = 0 then 0xFFFFFFFF
  else
    let n := topBit a
    BitVec.ofNat 32 ((rootBits 32 (2 ^ 57 / ((512 + mantissaIndex a) * 2 ^ (n % 2))) 0 + 1) / 2 + n / 2 * 2 ^ 24)

end Sys2Proof.Machine
end

