-- ==== Sys2Proof/Machine/SoliAlu.lean ====
section
/-!
DEFINITION. The arithmetic, logic and table instructions of the Soli engine (R197, R198, R204, Tables 10-3 and 10-4): one meaning each, every one
over the shared forms of Soli.lean.
-/
namespace Sys2Proof.Machine

abbrev Result := Host.Outcome State Fault Refusal

/-- ADD: D = A + B. -/
def execAdd (c : Ctx) (g : Guard) (d a b : Reg) (s : State) : Result := alu s c (.add c g d a b) g d a b (fun x y => x + y)

/-- SUB: D = A - B. -/
def execSub (c : Ctx) (g : Guard) (d a b : Reg) (s : State) : Result := alu s c (.sub c g d a b) g d a b (fun x y => x - y)

/-- MUL: low 32 bits of the product. -/
def execMul (c : Ctx) (g : Guard) (d a b : Reg) (s : State) : Result := alu s c (.mul c g d a b) g d a b (fun x y => x * y)

/-- MULH: high 32 bits of the signed product. -/
def execMulh (c : Ctx) (g : Guard) (d a b : Reg) (s : State) : Result := alu s c (.mulh c g d a b) g d a b mulHigh

/-- MAC: D + A B, wrapped. -/
def execMac (c : Ctx) (g : Guard) (d a b : Reg) (s : State) : Result :=
  aluAcc s c (.mac c g d a b) g d a b (fun z x y => z + x * y)

/-- DOT4S. -/
def execDot4s (c : Ctx) (g : Guard) (d a b : Reg) (s : State) : Result :=
  aluAcc s c (.dot4s c g d a b) g d a b dotSigned

/-- DOT4US. -/
def execDot4us (c : Ctx) (g : Guard) (d a b : Reg) (s : State) : Result :=
  aluAcc s c (.dot4us c g d a b) g d a b dotMixed

/-- AND. -/
def execAnd (c : Ctx) (g : Guard) (d a b : Reg) (s : State) : Result := alu s c (.and c g d a b) g d a b (fun x y => x &&& y)

/-- OR. -/
def execOr (c : Ctx) (g : Guard) (d a b : Reg) (s : State) : Result := alu s c (.or c g d a b) g d a b (fun x y => x ||| y)

/-- XOR. -/
def execXor (c : Ctx) (g : Guard) (d a b : Reg) (s : State) : Result := alu s c (.xor c g d a b) g d a b (fun x y => x ^^^ y)

/-- SHL by B[4:0]. -/
def execShl (c : Ctx) (g : Guard) (d a b : Reg) (s : State) : Result := alu s c (.shl c g d a b) g d a b (fun x y => x <<< amount y)

/-- SHR, logical, by B[4:0]. -/
def execShr (c : Ctx) (g : Guard) (d a b : Reg) (s : State) : Result := alu s c (.shr c g d a b) g d a b (fun x y => x >>> amount y)

/-- SRA, arithmetic, by B[4:0]. -/
def execSra (c : Ctx) (g : Guard) (d a b : Reg) (s : State) : Result := alu s c (.sra c g d a b) g d a b (fun x y => x.sshiftRight (amount y))

/-- MIN, signed. -/
def execMin (c : Ctx) (g : Guard) (d a b : Reg) (s : State) : Result := alu s c (.min c g d a b) g d a b minS

/-- MAX, signed. -/
def execMax (c : Ctx) (g : Guard) (d a b : Reg) (s : State) : Result := alu s c (.max c g d a b) g d a b maxS

/-- MINU, unsigned. -/
def execMinu (c : Ctx) (g : Guard) (d a b : Reg) (s : State) : Result := alu s c (.minu c g d a b) g d a b minU

/-- MAXU, unsigned. -/
def execMaxu (c : Ctx) (g : Guard) (d a b : Reg) (s : State) : Result := alu s c (.maxu c g d a b) g d a b maxU

/-- RSHR: the rounded shift of R174, A signed. -/
def execRshr (c : Ctx) (g : Guard) (d a b : Reg) (s : State) : Result := alu s c (.rshr c g d a b) g d a b (fun x y => BitVec.ofInt 32 (rshift x.toInt (amount y)))

/-- CLAMP between the two halves of B. -/
def execClamp (c : Ctx) (g : Guard) (d a b : Reg) (s : State) : Result := alu s c (.clamp c g d a b) g d a b clampWord

/-- ABS. -/
def execAbs (c : Ctx) (g : Guard) (d a : Reg) (s : State) : Result := alu1 s c (.abs c g d a) g d a absWord

/-- LZC. -/
def execLzc (c : Ctx) (g : Guard) (d a : Reg) (s : State) : Result := alu1 s c (.lzc c g d a) g d a leadingZeros

/-- EXP. -/
def execExp (c : Ctx) (g : Guard) (d a : Reg) (s : State) : Result := alu1 s c (.exp c g d a) g d a expTable

/-- RCP. -/
def execRcp (c : Ctx) (g : Guard) (d a : Reg) (s : State) : Result := alu1 s c (.rcp c g d a) g d a rcpTable

/-- RSQ. -/
def execRsq (c : Ctx) (g : Guard) (d a : Reg) (s : State) : Result := alu1 s c (.rsq c g d a) g d a rsqTable

/-- SEL: p[S] chooses A or B. -/
def execSel (c : Ctx) (g : Guard) (d a b : Reg) (p : BitVec 3) (s : State) : Result :=
  issue s c (.sel c g d a b p) fun x => writeReg s c x g d fun _ l => if l.pred p then l.reg a else l.reg b

/-- SHFL: register A of lane B[3:0], as it stood before. -/
def execShfl (c : Ctx) (g : Guard) (d a b : Reg) (s : State) : Result :=
  issue s c (.shfl c g d a b) fun x => writeReg s c x g d fun _ l =>
    (x.lanes[(l.reg b).toNat % 16]'(Nat.mod_lt _ (by decide))).reg a

/-- RSC (R198): the effective level truncates, then the rounded shift and the channel offset of B. -/
def execRsc (c : Ctx) (g : Guard) (d a b : Reg) (s : State) : Result :=
  issue s c (.rsc c g d a b) fun x =>
    let k := truncBits (level s (recRlim s x))
    writeReg s c x g d fun _ l => rescaleWord k (l.reg a) (l.reg b)

/-- ADDI, the immediate sign-extended. -/
def execAddi (c : Ctx) (g : Guard) (d a : Reg) (imm : BitVec 12) (s : State) : Result :=
  alu1 s c (.addi c g d a imm) g d a fun x => x + imm.signExtend 32

/-- ANDI, the immediate zero-extended. -/
def execAndi (c : Ctx) (g : Guard) (d a : Reg) (imm : BitVec 12) (s : State) : Result :=
  alu1 s c (.andi c g d a imm) g d a fun x => x &&& imm.setWidth 32

/-- ORI. -/
def execOri (c : Ctx) (g : Guard) (d a : Reg) (imm : BitVec 12) (s : State) : Result :=
  alu1 s c (.ori c g d a imm) g d a fun x => x ||| imm.setWidth 32

/-- XORI. -/
def execXori (c : Ctx) (g : Guard) (d a : Reg) (imm : BitVec 12) (s : State) : Result :=
  alu1 s c (.xori c g d a imm) g d a fun x => x ^^^ imm.setWidth 32

/-- SHLI. -/
def execShli (c : Ctx) (g : Guard) (d a : Reg) (sh : BitVec 5) (s : State) : Result :=
  alu1 s c (.shli c g d a sh) g d a fun x => x <<< sh.toNat

/-- SHRI, logical. -/
def execShri (c : Ctx) (g : Guard) (d a : Reg) (sh : BitVec 5) (s : State) : Result :=
  alu1 s c (.shri c g d a sh) g d a fun x => x >>> sh.toNat

/-- SRAI, arithmetic. -/
def execSrai (c : Ctx) (g : Guard) (d a : Reg) (sh : BitVec 5) (s : State) : Result :=
  alu1 s c (.srai c g d a sh) g d a fun x => x.sshiftRight sh.toNat

/-- LUI: IMM16 << 16. -/
def execLui (c : Ctx) (g : Guard) (d : Reg) (imm : BitVec 16) (s : State) : Result :=
  issue s c (.lui c g d imm) fun x => writeReg s c x g d fun _ _ => imm.setWidth 32 <<< 16

/-- The special values of Table 10-4. -/
def specialValue (s : State) (x : Section) (lane imm : Nat) : Word :=
  let r := recOff s (sectionRec s x)
  match imm with
  | 0 => BitVec.ofNat 32 lane
  | 1 => BitVec.ofNat 32 x.sec
  | 2 => BitVec.ofNat 32 (recSections s (sectionRec s x))
  | 3 => BitVec.ofNat 32 (bodyU s (r + 24) 4)
  | 4 => BitVec.ofNat 32 (bodyU s (r + 28) 4)
  | 5 => BitVec.ofNat 32 (recRlim s x)
  | _ => 0

/-- SREG. -/
def execSreg (c : Ctx) (g : Guard) (d : Reg) (imm : BitVec 12) (s : State) : Result :=
  issue s c (.sreg c g d imm) fun x => writeReg s c x g d fun k _ => specialValue s x k.val imm.toNat

/-- CMP. -/
def execCmp (c : Ctx) (g : Guard) (pd : BitVec 3) (cond : Cond) (a b : Reg) (s : State) : Result :=
  issue s c (.cmp c g pd cond a b) fun x => writePred s c x g pd fun l => condHolds cond (l.reg a) (l.reg b)

/-- CMPI, the immediate sign-extended. -/
def execCmpi (c : Ctx) (g : Guard) (pd : BitVec 3) (cond : Cond) (a : Reg) (imm : BitVec 11) (s : State) : Result :=
  issue s c (.cmpi c g pd cond a imm) fun x => writePred s c x g pd fun l => condHolds cond (l.reg a) (imm.signExtend 32)

def lopHolds (op : Lop) (p q : Bool) : Bool :=
  match op with
  | .and => p && q
  | .or => p || q
  | .xor => p != q
  | .andNot => p && !q

/-- PLOG. -/
def execPlog (c : Ctx) (g : Guard) (pd : BitVec 3) (op : Lop) (pa pb : BitVec 3) (s : State) : Result :=
  issue s c (.plog c g pd op pa pb) fun x => writePred s c x g pd fun l => lopHolds op (l.pred pa) (l.pred pb)

/-- VOTE: the OR or the AND of PA over the active lanes; as every instruction it writes in the lanes in which it acts (R196). -/
def execVote (c : Ctx) (g : Guard) (pd : BitVec 3) (all : Bool) (pa : BitVec 3) (s : State) : Result :=
  issue s c (.vote c g pd all pa) fun x =>
    let ks := (List.finRange 16).filter fun k => x.active.getLsbD k.val
    let v := if all then ks.all fun k => x.lanes[k].pred pa else ks.any fun k => x.lanes[k].pred pa
    writePred s c x g pd fun _ => v

end Sys2Proof.Machine
end

