-- ==== Sys2Proof/Machine/SoliControl.lean ====
section
/-!
DEFINITION. Control flow, holds and cues of the Soli engine: R199's branch, reconvergence, park and end; WAITLC (R200); CWAIT and CPOST (R205).
-/
namespace Sys2Proof.Machine

/-! ### The reconvergence stack (R199) -/

/-- A push: a full stack ends the section. -/
def Section.push (x : Section) (mask : BitVec 16) (addr : Int) : Option (List (BitVec 16 × Int)) :=
  if x.stack.length ≥ 8 then none else some ((mask, addr) :: x.stack)

/-- The topmost entry that still has a live lane: its mask and address, and the stack below it. -/
def popLive (live : BitVec 16) : List (BitVec 16 × Int) → Option (BitVec 16 × Int × List (BitVec 16 × Int))
  | [] => none
  | (m, a) :: r => if m &&& live = 0 then popLive live r else some (m &&& live, a, r)

/-- A section ends; its lanes are abandoned. -/
def Section.finish (x : Section) : Section := { x with ended := true, active := 0, live := 0, stack := [] }

/-- pop_next of R199. -/
def Section.popNext (x : Section) : Section :=
  match popLive x.live x.stack with
  | some (m, a, r) => { x with active := m, pc := a, stack := r }
  | none => x.finish

/-- BRA: lanes that take a divergent branch run first. `off` counts words from this instruction. -/
def Section.branch (x : Section) (g : Guard) (off : Int) : Section :=
  let t := x.actMask g
  if t = x.active then { x with pc := x.pc + off }
  else if t = 0 then x.advance
  else match x.push (x.active &&& ~~~t) (x.pc + 1) with
    | some k => { x with active := t, pc := x.pc + off, stack := k }
    | none => x.finish

def execBra (c : Ctx) (g : Guard) (off : BitVec 22) (s : State) : Result :=
  issue s c (.bra c g off) fun x => s.setSection c (x.branch g off.toInt)

/-- RPUSH. -/
def execRpush (c : Ctx) (off : BitVec 22) (s : State) : Result :=
  issue s c (.rpush c off) fun x => s.setSection c
    (match x.push x.active (x.pc + off.toInt) with
      | some k => { x with pc := x.pc + 1, stack := k }
      | none => x.finish)

/-- RSYNC. -/
def execRsync (c : Ctx) (s : State) : Result := issue s c (.rsync c) fun x => s.setSection c x.popNext

/-- PARK. -/
def execPark (c : Ctx) (g : Guard) (s : State) : Result :=
  issue s c (.park c g) fun x =>
    let m := x.active &&& ~~~(x.actMask g)
    let x := { x with active := m }
    s.setSection c (if m = 0 then x.popNext else x.advance)

/-- END for the lanes on which the guard is true. -/
def Section.endLanes (x : Section) (g : Guard) : Section :=
  let t := x.actMask g
  let x := { x with live := x.live &&& ~~~t, active := x.active &&& ~~~t }
  if x.active = 0 then x.popNext else x.advance

/-- The 64-bit ROM or OTP word that holds a body offset. -/
def bodyWord (s : State) (off : Nat) : Nat := (imageBase s.sel + 64 + off) / 8

/-- Uncorrectable errors that reads of some ROM or OTP words find trip detector 8 (Table 17-1, R333). -/
def romErrors (s : State) (ws : List Nat) (ups : List Upset) : State :=
  (ups.filter fun u => u.multi && ws.contains (u.addr / 8)).foldl (fun s u => eccTrip s 8 (u.addr / 8 * 8)) s

/-- END. A fetch that finds an uncorrectable error reads a word of zeros, which is END with an always-true guard (R333, R197): `ups` names
that error. -/
def execEndThreads (c : Ctx) (g : Guard) (ups : List Upset) (s : State) : Result :=
  match s.section c with
  | some x =>
    let w := (codeWordOff s x x.pc).map (bodyWord s)
    let broken := ups.any fun u => u.multi && w = some (u.addr / 8)
    let i := if broken then invalidWord c else nextInstr s c x
    if !x.ended && i = .endThreads c g [] then .next (romErrors (s.setSection c (x.endLanes g)) w.toList ups) else .next s
  | none => .next s

/-! ### Holds and cues -/

/-- WAITLC: the section is held while its counter is above COUNT. -/
def execWaitlc (c : Ctx) (g : Guard) (count : BitVec 6) (lc : BitVec 2) (s : State) : Result :=
  issue s c (.waitlc c g count lc) fun x =>
    if x.actMask g ≠ 0 && count.toNat < x.lcs[lc.toNat]'lc.isLt then s else s.setSection c x.advance

/-- CWAIT: acts once, with the target of the lowest lane in which it acts. -/
def execCwait (c : Ctx) (g : Guard) (cue : BitVec 7) (a : Reg) (s : State) : Result :=
  issue s c (.cwait c g cue a) fun x =>
    match x.actList g with
    | [] => s.setSection c x.advance
    | k :: _ =>
      if (x.lanes[k].reg a).toNat ≤ (s.exec.cues[cue.toNat]'cue.isLt).toNat then s.setSection c x.advance else s

/-- CPOST: acts once; the section's earlier stores are visible already. After an overrun nothing posts (R154). -/
def execCpost (c : Ctx) (g : Guard) (cue : BitVec 7) (inc : BitVec 9) (ups : List Upset) (s : State) : Result :=
  issue s c (.cpost c g cue inc []) fun x =>
    let t := s.setSection c x.advance
    if x.actMask g = 0 || s.exec.abandon then t else postReading t cue.toNat inc.toNat ups

end Sys2Proof.Machine
end

