-- ==== Sys2Proof/Machine/SoliMemory.lean ====
section
/-!
DEFINITION. Loads, constant loads and stores of the Soli engine (R137, R139, R140, R200 to R202, R333, R359).
-/
namespace Sys2Proof.Machine

/-! ### Data accesses -/

/-- One byte as a Soli load reads it: tensor SRAM, held store, the bar-context word and the pin-sample word; a refused access reads 0. -/
def soliRead (s : State) (a : Nat) : Byte :=
  if ramOpen s a then s.ram.read a
  else if ctxAddr ≤ a && a < ctxAddr + 4 then s.exec.ctx.extractLsb' (8 * (a - ctxAddr)) 8
  else if pinAddr ≤ a && a < pinAddr + 4 then s.exec.pins.extractLsb' (8 * (a - pinAddr)) 8
  else 0

/-- The address of an access in a lane: A plus the signed offset in units of the size, modulo 2^32. -/
def laneAddr (x : Section) (k : Fin 16) (a : Reg) (size : Nat) (off : BitVec 10) : Nat :=
  (x.lanes[k].reg a + BitVec.ofInt 32 (off.toInt * size)).toNat

/-- The number that a load of `size` bytes reads; an address that is not a multiple of the size is refused (R201). -/
def loadValue (s : State) (addr size : Nat) : Nat :=
  if addr % size = 0 then leNat ((List.range size).map fun i => soliRead s (addr + i)) else 0

/-- The 64-bit words that the acting lanes' accepted accesses touch. -/
def touched (s : State) (x : Section) (g : Guard) (a : Reg) (size : Nat) (off : BitVec 10) : List Nat :=
  (x.actList g).filterMap fun k =>
    let p := laneAddr x k a size off
    if p % size = 0 && ramOpen s p then some (p / 8) else none

/-- A load has issued: its values wait in the section, and its counter has gone up (R200). -/
def Section.hang (x : Section) (g : Guard) (d : Reg) (lc : BitVec 2) (values : Vector Word 16) : Section :=
  { x.advance with
    loads := x.loads ++ [⟨d, lc, values, x.actMask g⟩]
    lcs := x.lcs.set lc.toNat (x.lcs[lc.toNat]'lc.isLt + 1) lc.isLt }

/-- A load of `size` bytes; a counter at 63 holds it (R200). -/
def loadOp (s : State) (c : Ctx) (i : Instr) (g : Guard) (d a : Reg) (size : Nat) (sign : Bool) (off : BitVec 10) (lc : BitVec 2)
    (ups : List Upset) : Result :=
  issue s c i fun x =>
    if x.lcs[lc.toNat]'lc.isLt ≥ 63 then s
    else
      let s := readErrors s (touched s x g a size off) ups
      let value (k : Fin 16) : Word :=
        let v := loadValue s (laneAddr x k a size off) size
        if sign then BitVec.ofInt 32 (signed (8 * size) v) else BitVec.ofNat 32 v
      s.setSection c (x.hang g d lc (Vector.ofFn fun k => if x.acts g k then value k else 0))

/-- LDW. -/
def execLdw (c : Ctx) (g : Guard) (d a : Reg) (off : BitVec 10) (lc : BitVec 2) (ups : List Upset) (s : State) : Result :=
  loadOp s c (.ldw c g d a off lc []) g d a 4 false off lc ups

/-- LDH, sign-extended. -/
def execLdh (c : Ctx) (g : Guard) (d a : Reg) (off : BitVec 10) (lc : BitVec 2) (ups : List Upset) (s : State) : Result :=
  loadOp s c (.ldh c g d a off lc []) g d a 2 true off lc ups

/-- LDHU, zero-extended. -/
def execLdhu (c : Ctx) (g : Guard) (d a : Reg) (off : BitVec 10) (lc : BitVec 2) (ups : List Upset) (s : State) : Result :=
  loadOp s c (.ldhu c g d a off lc []) g d a 2 false off lc ups

/-- LDB, sign-extended. -/
def execLdb (c : Ctx) (g : Guard) (d a : Reg) (off : BitVec 10) (lc : BitVec 2) (ups : List Upset) (s : State) : Result :=
  loadOp s c (.ldb c g d a off lc []) g d a 1 true off lc ups

/-- LDBU, zero-extended. -/
def execLdbu (c : Ctx) (g : Guard) (d a : Reg) (off : BitVec 10) (lc : BitVec 2) (ups : List Upset) (s : State) : Result :=
  loadOp s c (.ldbu c g d a off lc []) g d a 1 false off lc ups

/-! ### Constant loads (R202) -/

/-- The word index of a lane's constant: A, unsigned, plus OFF10. -/
def constIndex (x : Section) (k : Fin 16) (a : Reg) (off : BitVec 10) : Int := (x.lanes[k].reg a).toNat + off.toInt

/-- The constant of a lane: a word outside the code range, or one whose read finds an uncorrectable error of `ups`, is 0. -/
def constValue (s : State) (x : Section) (k : Fin 16) (a : Reg) (off : BitVec 10) (ups : List Upset) : Word :=
  match codeWordOff s x (constIndex x k a off) with
  | some o => if ups.any (fun u => u.multi && u.addr / 8 = bodyWord s o) then 0 else BitVec.ofNat 32 (bodyU s o 4)
  | none => 0

/-- LDC. -/
def execLdc (c : Ctx) (g : Guard) (d a : Reg) (off : BitVec 10) (lc : BitVec 2) (ups : List Upset) (s : State) : Result :=
  issue s c (.ldc c g d a off lc []) fun x =>
    if x.lcs[lc.toNat]'lc.isLt ≥ 63 then s
    else
      let ws := (x.actList g).filterMap fun k => (codeWordOff s x (constIndex x k a off)).map (bodyWord s)
      let values := Vector.ofFn fun k => if x.acts g k then constValue s x k a off ups else 0
      romErrors (s.setSection c (x.hang g d lc values)) ws ups

/-- LOAD_RETURN (R200): an outstanding load writes some lanes' destination registers; with the last of them its counter goes down. -/
def execLoadReturn (c : Ctx) (k : Nat) (lanes : BitVec 16) (s : State) : Result :=
  match s.section c with
  | some x =>
    match x.loads[k]? with
    | some p =>
      let w := lanes &&& p.left
      let left := p.left &&& ~~~lanes
      let put (j : Fin 16) : Lane := if w.getLsbD j.val then x.lanes[j].setReg p.dest p.values[j] else x.lanes[j]
      let x := { x with lanes := Vector.ofFn put }
      .next (s.setSection c
        (if left = 0 then
          { x with loads := x.loads.eraseIdx k, lcs := x.lcs.set p.lc.toNat (x.lcs[p.lc.toNat]'p.lc.isLt - 1) p.lc.isLt }
        else { x with loads := x.loads.set k { p with left := left } }))
    | none => .next s
  | none => .next s

/-! ### Stores -/

/-- One lane's store: a refused or misaligned one is discarded (R139, R201). -/
def storeLane (s : State) (addr size : Nat) (v : Word) : State :=
  if addr % size = 0 && ramOpen s addr then
    { s with ram := s.ram.store (addr / 8) ((leBytes size v.toNat).mapIdx fun i b => (addr + i, b)) }
  else s

/-- A store: the lanes in rising order, so that the highest-numbered lane's data stays (R197). A store smaller than a word reads the word it
merges with, and so finds its errors (R359). -/
def storeOp (s : State) (c : Ctx) (i : Instr) (g : Guard) (d a : Reg) (size : Nat) (off : BitVec 10) (ups : List Upset) : Result :=
  issue s c i fun x =>
    let s := readErrors s (touched s x g a size off) ups
    let s := (x.actList g).foldl (fun s k => storeLane s (laneAddr x k a size off) size (x.lanes[k].reg d)) s
    s.setSection c x.advance

/-- STW. -/
def execStw (c : Ctx) (g : Guard) (d a : Reg) (off : BitVec 10) (ups : List Upset) (s : State) : Result :=
  storeOp s c (.stw c g d a off []) g d a 4 off ups

/-- STH. -/
def execSth (c : Ctx) (g : Guard) (d a : Reg) (off : BitVec 10) (ups : List Upset) (s : State) : Result :=
  storeOp s c (.sth c g d a off []) g d a 2 off ups

/-- STB. -/
def execStb (c : Ctx) (g : Guard) (d a : Reg) (off : BitVec 10) (ups : List Upset) (s : State) : Result :=
  storeOp s c (.stb c g d a off []) g d a 1 off ups

end Sys2Proof.Machine
end

