-- ==== Sys2Proof/Machine/Tutti.lean ====
section
/-!
DEFINITION. TUTTI_DESCRIPTOR_COMPLETE: what a descriptor computes and writes (R129 to R132, R156 to R183, R187, R188, R231 to R236). The passes
run in the order of R158, and each block column is written before the next one is read.
-/
namespace Sys2Proof.Machine

/-! ### Stage-0 read ports (R130 to R132, R162, R173) -/

/-- Offset and gain of a binned column (R131). -/
def columnTable (s : State) (p : Plane) (n k : Nat) : Int × Int :=
  let (o, g) := match p with
    | .w => (0x10, 0x290)
    | .h => (0x510, 0x650)
  let sum (base : Nat) : Int := ((List.range n).map fun i => signed 8 (s.nvm.cal (base + n * k + i)).toNat).sum
  (roundDiv (sum o) n, roundDiv (sum g) n)

/-- The corrected value p of R130. -/
def correct (v : Nat) (og : Int × Int) : Nat := (clampInt (roundDiv ((8 * (v : Int) - og.1) * (1024 + og.2)) 8192) 0 1023).toNat

/-- The defective pixels of a plane, row and column, from every entry whose VALID bit is 1 (R132). -/
def defects (s : State) (p : Plane) : List (Nat × Nat) :=
  (List.range 512).filterMap fun i =>
    let w := leNat ((List.range 4).map fun k => s.nvm.cal (0x790 + 4 * i + k))
    if bitAt w 31 && bitAt w 19 = (p = .h) then some (field w 10 9, field w 0 10) else none

/-- A stage-0 read of a row and column: 0 where the valid bit is clear, else corrected, with substitution in unbinned mode. -/
def stavePixel (s : State) (p : Plane) (bad : List (Nat × Nat)) (y x : Nat) : Nat :=
  let pl := s.plane p
  match (pl.stave[y % 16]?).getD none with
  | none => 0
  | some row =>
    let width := planeWidth p / pl.bin
    let own (c : Nat) := correct (row.getD c 0) (columnTable s p pl.bin c)
    let ok (c : Int) : Bool := 0 ≤ c && c < width && !bad.contains (y, c.toNat)
    if pl.bin = 1 && bad.contains (y, x) then
      let l := ok ((x : Int) - 1)
      let r := ok ((x : Int) + 1)
      if l && r then (roundDiv ((own (x - 1) : Int) + own (x + 1)) 2).toNat
      else if l then own (x - 1)
      else if r then own (x + 1)
      else own x
    else own x

/-- The activation code of a stage-0 value (R173). -/
def stageCode (p : Nat) : Nat := min 255 ((p + 2) / 4)

/-! ### Tensors (Table 08-5, R169) -/

/-- Byte offset of an element of a C16 (1) or C32 (2) tensor. -/
def tensorOff (layout h w c y x : Nat) : Nat :=
  if layout = 1 then ((c / 16 * h + y) * w + x) * 16 + c % 16 else ((c / 32 * h + y) * w + x) * 32 + c % 32

def slotOff (h w cb y x : Nat) : Nat := ((cb * h + y) * w + x) * 40

def psumOff (h w c y x : Nat) : Nat := (((c / 32 * h + y) * w + x) * 32 + c % 32) * 4

def wideOff (w first c y x : Nat) : Nat := (y * w + x) * 16 + 2 * (c - first)

/-- A channel's code in a compressed slot: a clear mask bit stands for `fill`. -/
def slotCode (s : State) (a i fill : Nat) : Nat :=
  let mask := engU s a 4
  if bitAt mask i then (engRead s (a + 4 + popcount i mask)).toNat else fill

/-- The operand of an input element (R161, R171, R172): a padding tap contributes 0. -/
def operand (s : State) (d : Desc) (bad : List (Nat × Nat)) (c : Nat) (y x : Int) : Int :=
  if y < 0 || (d.ih : Int) ≤ y || x < 0 || (d.iw : Int) ≤ x then 0
  else
    let y := y.toNat
    let x := x.toNat
    if d.winN ≠ 0 && d.winFirst ≤ c && c < d.winFirst + d.winN then signed 16 (engU s (d.winBase + wideOff d.iw d.winFirst c y x) 2)
    else
      let code := if d.src = 0 then stageCode (stavePixel s (planeOf d.plane) bad y x)
        else if d.cmpIn then slotCode s (d.inBase + slotOff d.ih d.iw (c / 32) y x) (c % 32) d.izp
        else (engRead s (d.inBase + tensorOff d.src d.ih d.iw c y x)).toNat
      (code : Int) - d.izp

/-- Whether a tap lies inside the input. -/
def inside (d : Desc) (y x : Int) : Bool := 0 ≤ y && y < d.ih && 0 ≤ x && x < d.iw

def tapY (d : Desc) (oy ky : Nat) : Int := (oy * d.sy + ky * d.dy : Nat) - (d.pt : Int)
def tapX (d : Desc) (ox kx : Nat) : Int := (ox * d.sx + kx * d.dx : Nat) - (d.pl : Int)

/-- The taps of a window, ky outer. -/
def taps (d : Desc) : List (Nat × Nat) := (List.range d.kh).flatMap fun ky => (List.range d.kw).map fun kx => (ky, kx)

/-! ### Weights (R164, R180, R181) -/

/-- Input and output channels of one group. -/
def inPerGroup (d : Desc) : Nat := d.ic / d.groups
def outPerGroup (d : Desc) : Nat := d.oc / d.groups

def isWide (d : Desc) (c : Nat) : Bool := d.woutN ≠ 0 && d.woutFirst ≤ c && c < d.woutFirst + d.woutN

/-- The narrow channels of a group. -/
def narrowOf (d : Desc) (g : Nat) : List Nat :=
  ((List.range (outPerGroup d)).map (g * outPerGroup d + ·)).filter fun c => !isWide d c

/-- A list cut into pieces of 32. -/
def cut32 (l : List Nat) : List (List Nat) := (List.range ((l.length + 31) / 32)).map fun i => (l.drop (32 * i)).take 32

/-- The channel tiles in the order of R164: by group, then narrow tile, then the wide tile. -/
def tilesOf (d : Desc) : List (List Nat) :=
  (List.range d.groups).flatMap (fun g => cut32 (narrowOf d g))
    ++ (if d.woutN = 0 then [] else [(List.range d.woutN).map (d.woutFirst + ·)])

/-- Bits of an index, 0 for int8 weights. -/
def indexBits (d : Desc) : Nat := if d.wfmt = 0 then 0 else d.wfmt + 1

/-- Bytes of one step of a tile. -/
def stepBytes (d : Desc) (rows : Nat) : Nat := if d.wfmt = 0 then rows else (rows * indexBits d + 7) / 8

def stepsOf (d : Desc) : Nat := inPerGroup d * d.kh * d.kw

/-- Where a channel's weights lie: tile number, tile offset from W_OFF, rows of the tile, row. -/
def placeWeights (d : Desc) (c : Nat) : List (List Nat) → Nat → Nat → Nat × Nat × Nat × Nat
  | [], i, off => (i, off, 1, 0)
  | t :: ts, i, off =>
    if t.contains c then (i, off, t.length, t.idxOf c)
    else placeWeights d c ts (i + 1) (off + stepsOf d * stepBytes d t.length)

/-- The int8 weight of a channel at reduction index `r`. -/
def weightAt (s : State) (d : Desc) (cbOff : Nat) (pl : Nat × Nat × Nat × Nat) (r : Nat) : Int :=
  let (tile, off, rows, j) := pl
  if d.wfmt = 0 then signed 8 (bodyByte s (d.wOff + off + r * rows + j)).toNat
  else
    let b := indexBits d
    let step := bodyU s (d.wOff + off + r * stepBytes d rows) (stepBytes d rows)
    let cbg := 32 * 2 ^ d.cbg
    let ncb := (stepsOf d + cbg - 1) / cbg
    signed 8 (bodyByte s (cbOff + 16 * (tile * ncb + r / cbg) + field step (j * b) b)).toNat

/-! ### Accumulators and rescale (R158, R165, R178) -/

/-- The accumulator of one output element, modulo 2^32. -/
def accumulate (s : State) (d : Desc) (bad : List (Nat × Nat)) (cbOff : Nat) (pl : Nat × Nat × Nat × Nat) (c oy ox : Nat) : Int :=
  let g := c / outPerGroup d
  let start := if d.psumIn then signed 32 (engU s (d.winBase + psumOff d.oh d.ow c oy ox) 4) else 0
  let sum := (List.range (inPerGroup d)).foldl (fun a ic =>
    (taps d).foldl (fun a t =>
      let x := operand s d bad (g * inPerGroup d + ic) (tapY d oy t.1) (tapX d ox t.2)
      a + x * weightAt s d cbOff pl ((ic * d.kh + t.1) * d.kw + t.2)) a) start
  wrap32 sum

/-- Truncation, shift and offset: t of R178. -/
def rescale (acc : Int) (k shift : Nat) (ofs : Int) : Int := rshift (clearLow acc k) shift + ofs

/-- What one output element becomes: its code, its int16 value when wide, and whether it is clipped (R170, R187). -/
structure Out where
  code : Nat
  wide : Option Int
  clipped : Bool

def narrowOut (d : Desc) (v : Int) : Out :=
  ⟨(clampInt v d.clo d.chi).toNat, none, v > d.chi || (v < d.clo && d.clo ≠ d.ozp)⟩

def convOut (d : Desc) (wide : Bool) (t : Int) : Out :=
  if wide then
    let w := clampInt t (-32768) 32767
    ⟨(clampInt (w + d.ozp) d.clo d.chi).toNat, some w, t < -32768 || t > 32767⟩
  else narrowOut d (t + d.ozp)

/-- Pooling (R168). PSUM_IN = 1, which R160 allows here and for which R168 gives no meaning, is ignored with WIN_BASE (the model's choice, log entry
89). -/
def poolOut (s : State) (d : Desc) (bad : List (Nat × Nat)) (c oy ox : Nat) : Out :=
  let ins := (taps d).filter fun t => inside d (tapY d oy t.1) (tapX d ox t.2)
  let vals := ins.map fun t => operand s d bad c (tapY d oy t.1) (tapX d ox t.2)
  if d.op = 3 then
    match vals with
    | [] => narrowOut d d.ozp
    | v :: r => narrowOut d (r.foldl max v + d.ozp)
  else narrowOut d (rshift vals.sum (Nat.log2 (d.kh * d.kw)) + d.ozp)

/-! ### Writing (R163, R169, R170, R233) -/

/-- The running result of a descriptor: memory and tile sums in the state, its own counts beside it. -/
structure Run where
  s : State
  total : Nat
  clipped : Nat
  skipped : Nat

/-- The tile sum that a byte written as an uncompressed code adds to (R233). -/
def noteTile (s : State) (a old new : Nat) : State :=
  if rprDeps s s.st = 0 then s
  else
    let (base, lay, h, w, wc) := watched s s.st
    let size := tensorSize lay h w wc
    if a < base || base + size ≤ a then s
    else
      let off := a - base
      let ch := if lay = 1 then 16 else 32
      let pos := off / ch
      let x := pos % w
      let y := pos / w % h
      let c := pos / w / h * ch + off % ch
      if wc ≤ c then s
      else
        let i := y / 16 * ((w + 15) / 16) + x / 16
        let v := s.exec.tiles.getD i 0
        { s with exec := { s.exec with tiles := s.exec.tiles.set i (satAdd 32 v (max old new - min old new)) } }

/-- One activation code of an uncompressed output. -/
def writeCode (s : State) (a v : Nat) : State :=
  if ramOpen s a then noteTile (engWrite s a [byte v]) a (s.ram.read a).toNat v else s

/-- The channels beyond OC in the block of a channel, of 16 or 32. -/
def padChannels (d : Desc) (size c : Nat) : List Nat :=
  let first := c / size * size
  ((List.range size).map (first + ·)).filter fun k => d.oc ≤ k

/-- The uncompressed write of one position of a group: codes, wide values, and the fill of the last block with OZP. -/
def writePosition (s : State) (d : Desc) (oy ox : Nat) (outs : List (Nat × Out)) : State :=
  let size := if d.dst = 1 then 16 else 32
  let addr (c : Nat) := d.outBase + tensorOff d.dst d.oh d.ow c oy ox
  let s := outs.foldl (fun s o => writeCode s (addr o.1) o.2.code) s
  let last := (outs.map (·.1)).foldl max 0
  if last / size = (d.oc - 1) / size then (padChannels d size last).foldl (fun s c => writeCode s (addr c) d.ozp) s else s

def writeWide (s : State) (d : Desc) (oy ox : Nat) (outs : List (Nat × Out)) : State :=
  outs.foldl (fun s o => match o.2.wide with
    | some w => engWrite s (d.woutBase + wideOff d.ow d.woutFirst o.1 oy ox) (leBytes 2 (w % 65536).toNat)
    | none => s) s

/-- The partial sums of one position, with 0 beyond OC. -/
def writePsums (s : State) (d : Desc) (oy ox : Nat) (accs : List (Nat × Int)) : State :=
  let addr (c : Nat) := d.outBase + psumOff d.oh d.ow c oy ox
  let s := accs.foldl (fun s a => engWrite s (addr a.1) (leBytes 4 (a.2 % 2 ^ 32).toNat)) s
  let last := (accs.map (·.1)).foldl max 0
  if last / 32 = (d.oc - 1) / 32 then (padChannels d 32 last).foldl (fun s c => engWrite s (addr c) [0, 0, 0, 0]) s else s

/-- The compressed slot of a block at one position: the channels computed take their new codes, the others keep the old ones; a slot
whose written flags are clear reads back as all OZP (R169). -/
def writeSlot (s : State) (d : Desc) (cb oy ox : Nat) (codes : List (Nat × Nat)) : State :=
  if codes = [] then s
  else
    let a := d.outBase + slotOff d.oh d.ow cb oy ox
    let old (i : Nat) : Nat := slotCode s a i d.ozp
    let code (i : Nat) : Nat := (codes.lookup (32 * cb + i)).getD (old i)
    let set := (List.range 32).filter fun i => 32 * cb + i < d.oc && code i ≠ d.ozp
    let mask := set.foldl (fun m i => m + 2 ^ i) 0
    engWrite s a (leBytes 4 mask ++ set.map fun i => byte (code i))

/-! ### Reprise (R233 to R236) -/

def threshold (e : Nat) : Nat := [0, 1, 2].getD e 4

/-- The dependent entry of a descriptor in the state's Reprise block. -/
def dependent (s : State) (i : Nat) : Option Nat :=
  (List.range (rprDeps s s.st)).find? fun k => rprU s s.st (16 + 8 * k) 2 = i

/-- The block column (oy, g, xt) is skipped (R234, R235). -/
def skips (s : State) (d : Desc) (i oy xt : Nat) : Bool :=
  let e := level s d.rlim
  match dependent s i with
  | none => false
  | some k =>
    if s.exec.ctx.getLsbD 3 || e = 0 || (s.exec.r + oy + xt) % 16 = 0 then false
    else
      let u (o n : Nat) := rprU s s.st (16 + 8 * k + o) n
      let (_, _, h, w, wc) := watched s s.st
      let ay := field (u 2 1) 0 4
      let ax := field (u 2 1) 4 4
      let x0 := 32 * xt
      let x1 := min (32 * xt + 31) (d.ow - 1)
      let r0 := max 0 ((ay * oy : Nat) + signed 8 (u 4 1))
      let r1 := min ((h : Int) - 1) ((ay * oy : Nat) + signed 8 (u 5 1))
      let c0 := max 0 ((ax * x0 : Nat) + signed 8 (u 6 1))
      let c1 := min ((w : Int) - 1) ((ax * x1 : Nat) + signed 8 (u 7 1))
      if r1 < r0 || c1 < c0 then true
      else
        let same (ty tx : Nat) : Bool :=
          let n := min 16 (h - 16 * ty) * min 16 (w - 16 * tx) * wc
          s.exec.tiles.getD (ty * ((w + 15) / 16) + tx) 0 < threshold e * n
        (fromTo (r0.toNat / 16) (r1.toNat / 16)).all fun ty => (fromTo (c0.toNat / 16) (c1.toNat / 16)).all fun tx => same ty tx

/-! ### A descriptor -/

/-- The output columns of a column tile. -/
def tileColumns (d : Desc) (xt : Nat) : List Nat := fromTo (32 * xt) (min (32 * xt + 31) (d.ow - 1))

/-- One block column (oy, g, xt): computed and written, or skipped; with CMP the codes are held for the slots, as position, channel and code. -/
def blockColumn (d : Desc) (i cbOff k : Nat) (bad : List (Nat × Nat)) (places : List (Nat × (Nat × Nat × Nat × Nat)))
    (oy g xt : Nat) (st : Run × List (Nat × Nat × Nat)) : Run × List (Nat × Nat × Nat) :=
  let (r, held) := st
  if skips r.s d i oy xt then ({ r with skipped := r.skipped + 1 }, held)
  else
    let s := r.s
    let chans := (List.range (outPerGroup d)).map (g * outPerGroup d + ·)
    let cols := tileColumns d xt
    let acc (c ox : Nat) := accumulate s d bad cbOff ((places.lookup c).getD (0, 0, 1, 0)) c oy ox
    if d.psumOut then
      let all := cols.map fun ox => (ox, chans.map fun c => (c, acc c ox))
      ({ r with s := all.foldl (fun s p => writePsums s d oy p.1 p.2) s }, held)
    else
      let out (c ox : Nat) : Out :=
        if d.op ≥ 3 then poolOut s d bad c oy ox
        else
          let w := bodyU s (d.qOff + 8 + 4 * c) 4
          convOut d (isWide d c) (rescale (acc c ox) k (field w 0 5) (signed 16 (field w 16 16)))
      let all := cols.map fun ox => (ox, chans.map fun c => (c, out c ox))
      let s := all.foldl (fun s p =>
        let s := writeWide s d oy p.1 p.2
        if d.cmp then s else writePosition s d oy p.1 p.2) s
      let outs := all.flatMap fun p => p.2.map (·.2)
      let held := if d.cmp then held ++ all.flatMap fun p => p.2.map fun o => (p.1, o.1, o.2.code) else held
      ({ r with s := s, total := r.total + outs.length, clipped := r.clipped + (outs.filter (·.clipped)).length }, held)

/-- The channel blocks for which `g` is the last group that has channels in them. -/
def lastBlocks (d : Desc) (g : Nat) : List Nat :=
  (List.range ((d.oc + 31) / 32)).filter fun cb => min (32 * cb + 31) (d.oc - 1) / outPerGroup d = g

/-- With CMP a block of a column tile is written once, as soon as every group that has channels in it has been handled for that tile (R169,
R170). -/
def writeSlots (d : Desc) (oy g xt : Nat) (st : Run × List (Nat × Nat × Nat)) : Run :=
  let (r, held) := st
  if d.cmp then
    { r with s := (lastBlocks d g).foldl (fun s cb =>
        (tileColumns d xt).foldl (fun s ox =>
          writeSlot s d cb oy ox ((held.filter fun h => h.1 = ox && h.2.1 / 32 = cb).map (·.2))) s) r.s }
  else r

/-- One output row: the block columns of every group, tile by tile, each with the compressed slots that it completes (R158). -/
def outputRow (d : Desc) (i cbOff k : Nat) (bad : List (Nat × Nat)) (places : List (Nat × (Nat × Nat × Nat × Nat))) (r : Run) (oy : Nat) : Run :=
  ((List.range d.groups).foldl (fun st g =>
    (List.range ((d.ow + 31) / 32)).foldl (fun st xt =>
      let st := blockColumn d i cbOff k bad places oy g xt st
      (writeSlots d oy g xt st, st.2)) st) (r, [])).1

/-- What a descriptor computes and writes. -/
def runDescriptor (s : State) (i : Nat) : Run :=
  let d := descAt s i
  let cbOff := bodyU s (d.qOff + 4) 4
  let k := truncBits (level s d.rlim)
  let bad := if d.src = 0 then defects s (planeOf d.plane) else []
  let tiles := tilesOf d
  let places := (List.range d.oc).map fun c => (c, placeWeights d c tiles 0 0)
  ((List.range d.oyn).map (d.oy0 + ·)).foldl (outputRow d i cbOff k bad places) ⟨s, 0, 0, 0⟩

/-- The clip-statistics layer of a descriptor (R187). -/
def layerOf (s : State) (d : Desc) : Nat := if d.op ≥ 3 then 63 else field (bodyU s d.qOff 4) 16 6

/-- TUTTI_DESCRIPTOR_COMPLETE (R157): the oldest descriptor in flight completes: its writes are visible, its counts are added, and it
posts. After an overrun a descriptor does not complete (R154). -/
def execTuttiDescriptorComplete (ups : List Upset) (s : State) : Host.Outcome State Fault Refusal :=
  match s.exec.tutti with
  | i :: rest =>
    if s.exec.abandon then .next s
    else
      let (s, failed) := opUpsets s ups
      if failed then .next s
      else
        let d := descAt s i
        let r := runDescriptor s i
        let s := r.s
        let l := layerOf s d
        let c := (s.exec.clips[l]?).getD (0, 0)
        let clips := if d.psumOut then s.exec.clips else s.exec.clips.setIfInBounds l (satAdd 32 c.1 r.total, satAdd 32 c.2 r.clipped)
        let s := { s with exec := { s.exec with tutti := rest, clips := clips, skipped := satAdd 32 s.exec.skipped r.skipped } }
        .next (postSync s (descOff s i) [])
  | [] => .next s

end Sys2Proof.Machine
end

