-- ==== Sys2Proof/Machine/Helpers.lean ====
section
/-!
DEFINITION. The three helpers of the Soli engine: crop unit (R208 to R211), sieve (R212 to R217) and attention helper (R184 to R186, R218 to
R227, R241). A job reads what it reads from the memory as it stands at its completion, before its own output (log entry 12).
-/
namespace Sys2Proof.Machine

/-- A signed number of `n` bytes in memory. -/
def engS (s : State) (a n : Nat) : Int := signed (8 * n) (engU s a n)

/-! ### Crop unit -/

/-- A box: x0, y0, x1, y1 in 1/16 of a column or row (R209). -/
structure Box where
  x0 : Nat
  y0 : Nat
  x1 : Nat
  y1 : Nat
deriving DecidableEq, Repr

def boxAt (s : State) (base b : Nat) : Box :=
  let u (k : Nat) := engU s (base + 4 + 8 * b + 2 * k) 2
  ⟨u 0, u 1, u 2, u 3⟩

/-- The sample position of R210 in 1/256 of a column: whole part and fraction. `n`: the output's size in this direction. -/
def samplePos (n e0 e1 o : Nat) : Int × Int :=
  let x : Int := 2 * (n : Int) * e0 + ((e1 : Int) - e0) * (2 * o + 1)
  let u := roundDiv (8 * x) n - 128
  (u / 256, u % 256)

/-- The four neighbours weighted (R210). -/
def bilinear (a : Int → Int → Int) (i j fx fy : Int) : Int :=
  rshift ((256 - fx) * (256 - fy) * a j i + fx * (256 - fy) * a j (i + 1) + (256 - fx) * fy * a (j + 1) i + fx * fy * a (j + 1) (i + 1)) 16

/-- One crop job. `o`: the body offset of its record (Table 11-1). -/
def runCrop (s : State) (o : Nat) : State :=
  let w (k : Nat) := bodyU s (o + k) 4
  let ctrl := w 12
  let lay := field ctrl 11 2
  let ow := field ctrl 13 6 + 1
  let oh := field ctrl 19 6 + 1
  let inBase := w 16
  let boxBase := w 20
  let outBase := w 24
  let dims := w 28
  let iw := field dims 0 10
  let ih := field dims 10 10
  let ic := field dims 20 10 + 1
  let count := min 32 (field (engU s boxBase 4) 0 6)
  let ch := if lay = 1 then 16 else 32
  let size := tensorSize lay oh ow ic
  let code (b : Box) (c oy ox : Nat) : Byte :=
    let (i, fx) := samplePos ow b.x0 b.x1 ox
    let (j, fy) := samplePos oh b.y0 b.y1 oy
    let a (r k : Int) : Int :=
      (engRead s (inBase + tensorOff lay ih iw c (clampInt r 0 (ih - 1)).toNat (clampInt k 0 (iw - 1)).toNat)).toNat
    byte (bilinear a i j fx fy).toNat
  (List.range count).foldl (fun t b =>
    let box := boxAt s boxBase b
    (List.range oh).foldl (fun t oy =>
      (List.range ow).foldl (fun t ox =>
        (List.range ((ic + ch - 1) / ch * ch)).foldl (fun t c =>
          engWrite t (outBase + b * size + tensorOff lay oh ow c oy ox) [if c < ic then code box c oy ox else 0]) t) t) t) s

/-- CROP_JOB_COMPLETE. -/
def execCropJobComplete (ups : List Upset) (s : State) : Result := .next (completeHelper s 1 ups runCrop)

/-! ### Sieve -/

/-- A decoded anchor (R214): corners, size, score and index. -/
structure Candidate where
  x0 : Int
  y0 : Int
  w : Int
  h : Int
  score : Nat
  anchor : Nat
deriving DecidableEq, Repr

def Candidate.x1 (c : Candidate) : Int := c.x0 + c.w
def Candidate.y1 (c : Candidate) : Int := c.y0 + c.h
def Candidate.area (c : Candidate) : Int := c.w * c.h

/-- Anchor `a` decoded. `ancOff`: the anchor section; `n`: its anchors. -/
def decodeAnchor (s : State) (inBase ancOff n a : Nat) : Candidate :=
  let r := inBase + 16 * a
  let e (k : Nat) : Int := bodyU s (ancOff + 8 * a + 2 * k) 2
  let d (k : Nat) : Int := engS s (r + k) 1
  let t (code : Int) : Int := bodyU s (ancOff + 8 * n + 2 * (code + 128).toNat) 2
  let lim (v : Int) := clampInt v 0 65535
  let cx := lim (e 0 + rshift (d 1 * e 2) 7)
  let cy := lim (e 1 + rshift (d 2 * e 3) 7)
  let w := lim (rshift (e 2 * t (d 3)) 12)
  let h := lim (rshift (e 3 * t (d 4)) 12)
  ⟨cx - rshift w 1, cy - rshift h 1, w, h, engU s r 1, a⟩

/-- The overlap rule of R216: 64 I ≤ IOU U. -/
def overlapOk (iou : Nat) (a b : Candidate) : Bool :=
  let i := max 0 (min a.x1 b.x1 - max a.x0 b.x0) * max 0 (min a.y1 b.y1 - max a.y0 b.y0)
  64 * i ≤ iou * (a.area + b.area - i)

/-- The visit of the ordered candidates: the boxes kept, in order of keeping. -/
def keepBoxes (iou limit : Nat) : List Candidate → List Candidate → List Candidate
  | [], kept => kept
  | c :: cs, kept =>
    if kept.length ≥ limit then kept
    else keepBoxes iou limit cs (if kept.all (overlapOk iou c) then kept ++ [c] else kept)

/-- Candidates in order: descending score, ascending anchor index (R215). -/
def orderAnchors (l : List (Nat × Nat)) : List Nat :=
  (List.range 256).reverse.flatMap fun k => (l.filter fun p => p.1 = k).map (·.2)

/-- One sieve job (Table 11-2). -/
def runSieve (s : State) (o : Nat) : State :=
  let w (k : Nat) := bodyU s (o + k) 4
  let ctrl := w 12
  let n := field ctrl 11 14 + 1
  let iou := field ctrl 25 7
  let inBase := w 16
  let outBase := w 20
  let ancOff := w 24
  let lim := w 28
  let scoreMin := field lim 0 8
  let limit := field lim 8 5 + 1
  let cands := ((List.range n).map fun a => (engU s (inBase + 16 * a) 1, a)).filter fun p => scoreMin ≤ p.1
  let ordered := ((orderAnchors cands).take 1024).map (decodeAnchor s inBase ancOff n)
  let kept := keepBoxes iou limit ordered []
  let edge (v : Int) := leBytes 2 (clampInt v 0 65535).toNat
  let head := kept.length + 64 * min 1024 cands.length + 131072 * (cands.length - 1024)
  let t := engWrite s outBase (leBytes 4 head)
  kept.zipIdx.foldl (fun t p =>
    let (c, k) := p
    let t := engWrite t (outBase + 4 + 8 * k) (edge c.x0 ++ edge c.y0 ++ edge c.x1 ++ edge c.y1)
    engWrite t (outBase + 260 + 4 * k) (leBytes 4 (c.score + 256 * c.anchor))) t

/-- SIEVE_JOB_COMPLETE. -/
def execSieveJobComplete (ups : List Upset) (s : State) : Result := .next (completeHelper s 2 ups runSieve)

/-! ### Attention helper -/

/-- The fields of an attention record (Table 11-3). -/
structure Attention where
  rlim : Nat
  nt : Nat
  nq : Nat
  dk : Nat
  dv : Nat
  src : Nat
  store : Nat
  codebook : Nat
  out : Nat
  lsh : Int
  oexp : Int
  ozp : Nat
  write : Bool
deriving DecidableEq, Repr

def attentionAt (s : State) (o : Nat) : Attention :=
  let w (k : Nat) := bodyU s (o + k) 4
  let c := w 12
  let kv := w 20
  let z := w 28
  ⟨field c 7 4, field c 11 5 + 1, field c 16 5 + 1, 8 * (field c 21 3 + 1), 16 * (field c 24 2 + 1), w 16, heldBase + 8 * field kv 0 15,
    16 * field kv 15 17, w 24, signed 8 (field z 0 8), signed 8 (field z 8 8), field z 16 8, bitAt z 24⟩

/-- The shift of a dynamic group (R184): the smallest s in -6 to 25 with m ≤ 127 × 2^s. -/
def groupShift (vs : List Int) : Int :=
  let m := (vs.map Int.natAbs).foldl max 0
  (((List.range 32).find? fun k => 64 * m ≤ 127 * 2 ^ k).getD 31 : Int) - 6

/-- The code of one element (R184). -/
def groupCode (sh : Int) (v : Int) : Int :=
  clampInt (if 0 ≤ sh then rshift v sh.toNat else v * 2 ^ (-sh).toNat) (-127) 127

/-- The 4-bit index of a value code (R186): the nearest codebook entry, the lower index on a tie. -/
def nearestIndex (cb : List Int) (c : Int) : Nat :=
  let d (i : Nat) := (c - cb.getD i 0).natAbs
  (List.range 16).foldl (fun best i => if d i < d best then i else best) 0

def codebookOf (s : State) (a : Attention) : List Int := (List.range 16).map fun i => signed 8 (bodyByte s (a.codebook + i)).toNat

/-- `n` int32 source values from a byte offset (R219). -/
def sourceValues (s : State) (base n : Nat) : List Int := (List.range n).map fun i => engS s (base + 4 * i) 4

/-- Bytes of a bar slot, and its fields' places (R220, Table 11-4). -/
def slotSize (a : Attention) : Nat := 8 + a.nt * (16 + a.dk + a.dv / 2)
def slotBase (a : Attention) (k : Nat) : Nat := a.store + k * slotSize a
def keyToken (a : Attention) (k t : Nat) : Nat := slotBase a k + 8 + t * (8 + a.dk)
def valueToken (a : Attention) (k t : Nat) : Nat := slotBase a k + 8 + a.nt * (8 + a.dk) + t * (8 + a.dv / 2)

/-- The store write of R221: keys, values, and the header last. -/
def writeStore (s : State) (a : Attention) : State :=
  let n := s.aon.bar.toNat
  let k := n % 64
  let cb := codebookOf s a
  let keys := a.src + 4 * (a.nq * a.dk)
  let vals := keys + 4 * (a.nt * a.dk)
  let shiftBytes (sh : Int) : List Byte := BitVec.ofInt 8 sh :: List.replicate 7 0
  let t := (List.range a.nt).foldl (fun t i =>
    let vs := sourceValues s (keys + 4 * (i * a.dk)) a.dk
    let sh := groupShift vs
    engWrite t (keyToken a k i) (shiftBytes sh ++ vs.map fun v => BitVec.ofInt 8 (groupCode sh v))) s
  let t := (List.range a.nt).foldl (fun t i =>
    let vs := sourceValues s (vals + 4 * (i * a.dv)) a.dv
    let sh := groupShift vs
    let ix := vs.map fun v => nearestIndex cb (groupCode sh v)
    engWrite t (valueToken a k i) (shiftBytes sh ++ (List.range (a.dv / 2)).map fun j => byte (ix.getD (2 * j) 0 + 16 * ix.getD (2 * j + 1) 0))) t
  engWrite t (slotBase a k) (leBytes 8 (n + 65536 * (a.nt - 1) + 2097152))

/-- A stored position: slot, token and age. -/
structure Position where
  slot : Nat
  token : Nat
  age : Nat
deriving DecidableEq, Repr

/-- The positions of the valid slots (R222). -/
def positions (s : State) (a : Attention) : List Position :=
  (List.range 64).flatMap fun k =>
    let h := engU s (slotBase a k) 8
    let age := (s.aon.bar.toNat + 65536 - field h 0 16) % 65536
    if bitAt h 21 && field h 16 5 = a.nt - 1 && age ≤ 63 then (List.range a.nt).map fun t => ⟨k, t, age⟩ else []

/-- Horizon and margin of Table 11-5. -/
def restLimits (e : Nat) : Option (Nat × Int) :=
  match e with
  | 0 => none
  | 1 => none
  | 2 => none
  | 3 => none
  | 4 => some (48, 2048)
  | 5 => some (32, 1792)
  | 6 => some (24, 1536)
  | _ => some (16, 1280)

/-- The logit in Q8 of a query against a position (R224). -/
def logit (s : State) (a : Attention) (k : Nat) (sq : Int) (q : List Int) (p : Position) : Int :=
  let base := keyToken a p.slot p.token
  let sk := engS s base 1
  let d := ((List.range a.dk).map fun j => q.getD j 0 * engS s (base + 8 + j) 1).sum
  let d := clearLow d k
  let n := sq + sk + a.lsh + 8
  clampInt (if 0 ≤ n then d * 2 ^ n.toNat else rshift d (-n).toNat) (-(2 ^ 24)) (2 ^ 24)

/-- The output of one query: the codes of its value elements, and the positions it rests by age and by weakness. `none`: no position is
attended, and the codes are free. -/
def attend (s : State) (a : Attention) (ps : List Position) (cb : List Int) (qi : Nat) : Option (List Nat) × Nat × Nat :=
  let e := level s a.rlim
  let vs := sourceValues s (a.src + 4 * (qi * a.dk)) a.dk
  let sq := groupShift vs
  let q := vs.map (groupCode sq)
  let near := ps.filter fun p => (restLimits e).all fun l => p.age ≤ l.1
  let ls := near.map fun p => (p, logit s a (truncBits e) sq q p)
  match ls with
  | [] => (none, ps.length, 0)
  | f :: _ =>
    let top := (ls.map (·.2)).foldl max f.2
    let kept := ls.filter fun x => (restLimits e).all fun l => top - l.2 ≤ x.2
    let ws := (kept.map fun x => (x.1, (expTable (BitVec.ofInt 32 (max (-4096) (x.2 - top)))).toNat)).filter fun x => x.2 ≠ 0
    let shOf (p : Position) : Int := engS s (valueToken a p.slot p.token) 1
    let big := (ws.map fun x => shOf x.1).foldl max (ws.head?.elim 0 fun x => shOf x.1)
    let total := (ws.map (·.2)).sum
    let code (j : Nat) : Nat :=
      let acc := (ws.map fun x =>
        let b := engU s (valueToken a x.1.slot x.1.token + 8 + j / 2) 1
        rshift (x.2 * cb.getD (if j % 2 = 0 then b % 16 else b / 16) 0) (big - shOf x.1).toNat).sum
      let o := roundDiv acc total
      let m := big - a.oexp
      (clampInt ((if 0 ≤ m then o * 2 ^ m.toNat else rshift o (-m).toNat) + a.ozp) 0 255).toNat
    (some ((List.range a.dv).map code), ps.length - near.length, near.length - kept.length)

/-- One attention job. With no position to attend, the codes of a query are free values (log entry 4). -/
def runAttention (s : State) (o : Nat) : State :=
  let a := attentionAt s o
  let s := if a.write then writeStore s a else s
  let ps := positions s a
  let cb := codebookOf s a
  let outs := (List.range a.nq).map (attend s a ps cb)
  let t := outs.zipIdx.foldl (fun t r =>
    (List.range a.dv).foldl (fun t j =>
      let v : Byte := match r.1.1 with
        | some l => byte (l.getD j 0)
        | none => Config.attentionNoPosition o r.2 j
      engWrite t (a.out + tensorOff 2 1 a.nq j 0 r.2) [v]) t) s
  { t with
    exec := { t.exec with
      restAge := satAdd 32 t.exec.restAge ((outs.map (·.2.1)).sum)
      restWeak := satAdd 32 t.exec.restWeak ((outs.map (·.2.2)).sum) } }

/-- ATTENTION_JOB_COMPLETE. -/
def execAttentionJobComplete (ups : List Upset) (s : State) : Result := .next (completeHelper s 3 ups runAttention)

end Sys2Proof.Machine
end

