-- ==== Sys2Proof/Machine/Port.lean ====
section
/-!
DEFINITION. The leakage gate and the event port (R39, R40, R263, R267, R274, R275) and the REF_CLK checker with the oscillator trim (R112 to R114).
-/
namespace Sys2Proof.Machine

/-! ### The leakage gate -/

/-- One AON edge: L is added to the accumulator; at 32 960 a token is added, up to the cap; at the cap the accumulator holds at 0. -/
def gateEdge (leak : Nat) (g : Nat × Nat) : Nat × Nat :=
  let (acc, tokens) := g
  if tokenCap ≤ tokens then (0, tokens)
  else if leakFull ≤ acc + leak then (if tokens + 1 = tokenCap then 0 else acc + leak - leakFull, tokens + 1)
  else (acc + leak, tokens)

/-- Edges up to the first at which an entry is released: a token is present, its own included, and an entry `waits`. The flag says that there was
one. -/
def gateEdges : Nat → Nat → Bool → Nat × Nat → (Nat × Nat) × Bool
  | 0, _, _, g => (g, false)
  | n + 1, leak, waits, g =>
    let g := gateEdge leak g
    if waits && g.2 ≠ 0 then (g, true) else gateEdges n leak waits g

/-- The oldest entry of Q2 that waits for release, and the oldest of Q3: their stamps. -/
def waitingQ2 (s : State) : Option Nat := (s.port.ring.find? fun e => e.st = .enqueued).map (·.stamp)
def waitingQ3 (s : State) : Option Nat := (s.duet.q3.find? fun m => !m.released).map (·.stamp)

/-- Releasing the oldest waiting entry. -/
def releaseQ2 : List RingEntry → List RingEntry
  | [] => []
  | e :: r => if e.st = .enqueued then { e with st := .released } :: r else e :: releaseQ2 r

def releaseQ3 : List Msg → List Msg
  | [] => []
  | m :: r => if !m.released then { m with released := true } :: r else m :: releaseQ3 r

/-- Q3 goes before Q2: its entry is older, or as old (R274). -/
def q3First (s : State) : Bool :=
  match waitingQ2 s, waitingQ3 s with
  | some a, some b => b ≤ a
  | none, some _ => true
  | _, none => false

/-- TOKEN_REFILL (R274): `edges` AON edges, of which one that releases an entry is the last; RECORD_RELEASE comes before the next. Before the
first latch moment after the AON domain powers on there is no code and nothing is added (R39). -/
def execTokenRefill (edges : Nat) (s : State) : Host.Outcome State Fault Refusal :=
  match s.aon.leak with
  | some c =>
    if s.aon.on && !s.port.release then
      let ((acc, tokens), release) := gateEdges edges (leakRate c) ((waitingQ2 s).isSome || (waitingQ3 s).isSome) (s.aon.acc, s.aon.tokens)
      .next { s with aon := { s.aon with acc := acc, tokens := tokens }, port := { s.port with release := release } }
    else .next s
  | none => .next s

def spendToken (s : State) : State := { s with aon := { s.aon with tokens := s.aon.tokens - 1 } }

/-- RECORD_RELEASE (R274): at an AON edge at which a token is present and an entry waits, one token is spent and one entry is released. -/
def execRecordRelease (s : State) : Host.Outcome State Fault Refusal :=
  let due := s.port.release
  let s := { s with port := { s.port with release := false } }
  if !due || s.aon.tokens = 0 then .next s
  else if q3First s then
    let t := spendToken s
    .next { t with duet := { t.duet with q3 := releaseQ3 t.duet.q3 } }
  else if (waitingQ2 s).isSome then
    let t := spendToken s
    .next { t with port := { t.port with ring := releaseQ2 t.port.ring } }
  else .next s

/-! ### The event port -/

/-- An idle record, formed when a transaction selects it (R267): STALE, HOLD, BROWN and DROP are 0. -/
def idleRecord (s : State) : Record := recordOf s 15 s.aon.idle.toNat (Nat.land (flagsOf s) 0x3C) 0 []

/-- The oldest entry that is released or partly read is served: it becomes partly read, and after exactly 256 edges it is retired. -/
def serveRing (edges : Nat) : List RingEntry → Option (Record × List RingEntry)
  | [] => none
  | e :: r =>
    if e.st = .enqueued then (serveRing edges r).map fun p => (p.1, e :: p.2)
    else some (e.data, if edges = 256 then r else { e with st := .partly } :: r)

/-- EVENT_PORT_TRANSACTION (R263, R275): EV_CS_N is low for `edges` rising edges of EV_SCK. -/
def execEventPortTransaction (edges : Nat) (s : State) : Host.Outcome State Fault Refusal :=
  if s.port.on then
    match serveRing edges s.port.ring with
    | some (r, ring) => .next { s with port := { s.port with ring := ring, served := some (r, edges) } }
    | none =>
      .next { s with
        port := { s.port with served := some (idleRecord s, edges) }
        aon := { s.aon with idle := if edges = 256 then s.aon.idle + 1 else s.aon.idle } }
  else .next s

/-- EVT_N is driven low while the ring holds a released, unretired record (R265), in Tacet entry until its step 4 ends (log entry 59). -/
def evtLow (s : State) : Bool := s.port.on && s.port.ring.any fun e => e.st ≠ .enqueued

/-! ### REF_CLK (R113, R114) -/

/-- A period within 0.1 % of 30.518 us, measured in 48 MHz cycles. -/
def goodPeriod (cycles : Nat) : Bool := (32 * (cycles : Int) - 46875).natAbs * 1000 ≤ 46875

/-- REF_CLK becomes invalid; the trim holds its last value. -/
def refLost (r : RefClk) (seen : Bool) : RefClk := { r with seen := seen, good := 0, valid := false, run := 0, sum := 0, runs := 0 }

/-- One rising edge; `cycles` is the length of the period that it ends. A valid clock that becomes invalid counts its first period from the
next edge; one that was not valid counts on from this edge. -/
def RefClk.edge (r : RefClk) (cycles : Nat) : RefClk :=
  if !r.seen then { r with seen := true, good := 0, run := 0 }
  else if !goodPeriod cycles then refLost r (!r.valid)
  else if r.valid then { r with run := min (r.run + 1) 32, sum := r.sum + cycles }
  else if r.good + 1 = 32 then { r with good := 32, valid := true, run := 0, sum := 0, runs := 0 }
  else { r with good := r.good + 1 }

/-- REF_CLK_EDGE. -/
def execRefClkEdge (cycles : Nat) (s : State) : Host.Outcome State Fault Refusal :=
  if s.supply.core && (s.ref.run < 32 || !s.ref.valid) then .next { s with ref := s.ref.edge cycles } else .next s

/-- REF_CLK_TIMEOUT: no edge for 122 us. -/
def execRefClkTimeout (s : State) : Host.Outcome State Fault Refusal :=
  if s.supply.core then .next { s with ref := refLost s.ref false } else .next s

/-- The trim's move after a run: the measured error, limited to 0.1 % and resolved to 20 ppm; a fast oscillator counts more than 46 875. -/
def trimMove (cycles : Nat) : Int :=
  let ppm := roundDiv ((46875 - (cycles : Int)) * 1000000) 46875
  clampInt (roundDiv ppm 20) (-50) 50

/-- The trim after a run: it moves by at most 0.1 %, and keeps the oscillator within 2 % of 48 MHz (R112, R113). -/
def trimAfter (trim : Int) (cycles : Nat) : Int :=
  let e := clampInt Config.oscillatorError (-1000) 1000
  clampInt (clampInt (trim + trimMove cycles) (-1000 - e) (1000 - e)) (trim - 50) (trim + 50)

/-- TRIM_RUN_END: a run of 32 periods ends and the trim moves. `cycles`: the cycles counted over the run, which its edges have given. -/
def execTrimRunEnd (cycles : Nat) (s : State) : Host.Outcome State Fault Refusal :=
  if s.supply.core && s.ref.valid && s.ref.run = 32 && cycles = s.ref.sum then
    .next { s with
      ref := { s.ref with run := 0, sum := 0, runs := min (s.ref.runs + 1) 24 }
      aon := { s.aon with trim := trimAfter s.aon.trim cycles } }
  else .next s

end Sys2Proof.Machine
end

