-- ==== Sys2Proof/Machine/Touch.lean ====
section
/-!
DEFINITION. The Pizzicato touch front end (R242 to R255): scan start with the choice of mode, decoding, signals, baselines, suspect nodes,
charger noise, position, keys and gestures.
-/
namespace Sys2Proof.Machine

/-! ### The touch block of the state in force (Table 13-1) -/

def touchRate (s : State) : Nat := field (stTouch s s.st 0 4) 0 8
def wakeSelect (s : State) : Bool := bitAt (stTouch s s.st 0 4) 8
def touchDir (s : State) : Bool := bitAt (stTouch s s.st 0 4) 9
def txEnabled (s : State) (i : Nat) : Bool := bitAt (stTouch s s.st 4 4) i
def rxEnabled (s : State) (j : Nat) : Bool := bitAt (stTouch s s.st 4 4) (8 + j)
def touchKey (s : State) (q : Nat) : Nat := stTouch s s.st (8 + 4 * q) 4

/-! ### Scan start (R246, R252) -/

/-- Noisy scans among the last 8 completed ones. -/
def noisyCount (t : Touch) : Nat := (t.noisy.filter id).length

/-- SCAN_START: the mode of the scan is chosen (R252) and the effective SENSE code is taken for it (R72). An entry trips detector 14; an injection at code 14 forces entry and holds the mode. -/
def execScanStart (chg : Bool) (s : State) : Host.Outcome State Fault Refusal :=
  let t := s.touch
  if s.running && s.fermata.isNone && t.on && !t.scanning then
    let counted := 4 ≤ noisyCount t
    let forced := s.inject 14
    let stays := t.noise && (chg || forced || t.quiet < 64)
    let enters := !t.noise && (chg || counted || forced)
    let detail := (if chg then 1 else 0) + (if counted then 2 else 0) + 65536 * min t.lastNoise 65535
    let s := if enters then trip s 14 (forced && !chg && !counted) (BitVec.ofNat 32 detail) else s
    let noise := stays || enters
    .next { s with touch := { s.touch with scanning := true, chg := chg, scanNoise := noise, scanSense := s.codes.sense.eff, noise := noise } }
  else .next s

/-! ### Decoding (R244, R245) -/

/-- Drive polarity h(i, c) is -1. -/
def driveNegative (noise : Bool) (i c : Nat) : Bool := popcount 4 (Nat.land (if noise then 8 + i else i) c) % 2 = 1

/-- A decoded sum as a measurement in counts (R243). -/
def countOf (v : Int) : Int := if 0 ≤ v && v ≤ 65535 then v else (Config.measureOutside v).toNat

/-- M(i, j). -/
def measurement (noise : Bool) (chips : List (List Int)) (i j : Nat) : Int :=
  let sum := (chips.zipIdx.map fun p => if driveNegative noise i p.2 then -(p.1.getD j 0) else p.1.getD j 0).sum
  countOf (rshift sum (if noise then 4 else 3))

/-- The noise figure N (R252). -/
def noiseFigure (s : State) (listen : List (List Int)) : Nat :=
  (listen.flatMap fun c => (List.range 16).map fun j => if rxEnabled s j then (c.getD j 0).natAbs else 0).foldl max 0

/-! ### Signals and baselines (R247 to R250) -/

/-- A node's signal with the baseline before this scan; a node whose sense line is not measured has none. -/
def signal (s : State) (ms : List Int) (n : Nat) : Int :=
  if rxEnabled s (n % 16) then (((s.touch.nodes[n]?).getD Node.zero).base / 65536) - ms.getD n 0 else 0

/-- A node and the nodes within one row and one column of it. -/
def around (n : Nat) : List Nat :=
  (List.range 128).filter fun k => k / 16 ≤ n / 16 + 1 && n / 16 ≤ k / 16 + 1 && k % 16 ≤ n % 16 + 1 && n % 16 ≤ k % 16 + 1

/-- The factory reference of a node (Table 16-12). -/
def touchRef (s : State) (n : Nat) : Int := ((s.nvm.cal (0xF90 + 2 * n)).toNat + 256 * (s.nvm.cal (0xF91 + 2 * n)).toNat : Nat)

/-- Rounded weight A of R248. -/
def baseWeight (rate : Nat) : Int := roundDiv 65536 (4 * rate)

/-- A node in the first completed scan after a start (R250). -/
def firstScanNode (s : State) (x : Node) (n : Nat) (m : Int) : Node :=
  let r := touchRef s n
  { x with
    base := m * 65536, meas := m, suspect := decide (r ≠ 0) && decide (4 * (m - r).natAbs > r.natAbs), anti := 0
    runM0 := m, runLen := 1, touched := false }

/-- A node in any other completed scan. `th`: the effective threshold; `ds`: the signals of all nodes; `fires`: the nodes that are in
their eighth scan as anti-touch. -/
def scanNode (s : State) (th : Int) (ds : List Int) (fires : List Nat) (x : Node) (n : Nat) (m : Int) : Node :=
  let d := ds.getD n 0
  let anti := d ≤ -(roundDiv th 2)
  let frozen := (around n).any fun k => th ≤ ds.getD k 0
  let tracked := if frozen then x.base else x.base + rshift ((m * 65536 - x.base) * baseWeight (touchRate s)) 16
  let same := decide (4 * (m - x.runM0).natAbs ≤ th.natAbs) && x.runLen ≠ 0
  let m0 := if same then x.runM0 else m
  let len := if same then x.runLen + 1 else 1
  let released := x.suspect && (anti || 2 * touchRate s ≤ len)
  let rebased := fires.contains n || (d < 0 && (around n).any fun k => fires.contains k)
  { base := if released || rebased then m * 65536 else tracked
    meas := m
    suspect := x.suspect && !released
    anti := if fires.contains n then 0 else if anti then min (x.anti + 1) 8 else 0
    runM0 := m0
    runLen := if x.suspect && !released then len else 0
    touched := txEnabled s (n / 16) && !x.suspect && decide (th ≤ d) }

/-- The nodes after a completed scan. In a scan that does not measure a node, its counts of consecutive scans end. -/
def scanNodes (s : State) (th : Int) (ms ds : List Int) : Vector Node 128 :=
  let fires := (List.range 128).filter fun n =>
    rxEnabled s (n % 16) && ds.getD n 0 ≤ -(roundDiv th 2) && 7 ≤ ((s.touch.nodes[n]?).getD Node.zero).anti
  Vector.ofFn fun n : Fin 128 =>
    let x := s.touch.nodes[n]
    if !rxEnabled s (n.val % 16) then { x with touched := false, anti := 0, runLen := 0 }
    else if s.touch.fresh then firstScanNode s x n.val (ms.getD n.val 0)
    else scanNode s th ds fires x n.val (ms.getD n.val 0)

/-! ### Position and keys (R253) -/

/-- The touched node with the largest signal; the lowest index among equals. -/
def strongest (nodes : Vector Node 128) (ds : List Int) : Option Nat :=
  (List.range 128).foldl (fun best n =>
    if !((nodes[n]?).getD Node.zero).touched then best
    else match best with
      | none => some n
      | some b => if ds.getD b 0 < ds.getD n 0 then some n else best) none

/-- The signal of a neighbour along the row, 0 where R253 says so. -/
def rowSignal (s : State) (ds : List Int) (i : Nat) (r : Int) : Int :=
  if r < 0 || 15 < r then 0
  else
    let n := 16 * i + r.toNat
    if !rxEnabled s r.toNat || ((s.touch.nodes[n]?).getD Node.zero).suspect then 0 else max 0 (ds.getD n 0)

def position (s : State) (ds : List Int) (n : Nat) : Int :=
  let i := n / 16
  let r : Int := (n % 16 : Nat)
  let lo := rowSignal s ds i (r - 1)
  let mid := rowSignal s ds i r
  let hi := rowSignal s ds i (r + 1)
  let pos := clampInt (16 * r + roundDiv (16 * (hi - lo)) (lo + mid + hi).toNat) 0 240
  if touchDir s then 240 - pos else pos

def keyOf (s : State) (n : Nat) : Nat :=
  match (List.range 8).find? fun q =>
      let k := touchKey s q
      bitAt k 14 && field k 0 3 ≤ n / 16 && n / 16 ≤ field k 3 3 && field k 6 4 ≤ n % 16 && n % 16 ≤ field k 10 4 with
  | some q => q + 1
  | none => 0

/-! ### Gestures (R254, Table 13-2) -/

def tapScans (rate : Nat) : Nat := (rate + 3) / 4
def gapScans (rate : Nat) : Nat := (3 * rate + 9) / 10
def longScans (rate : Nat) : Nat := (4 * rate + 4) / 5

/-- One contact scan: the recogniser and the event, 0 for none. -/
def Gesture.contact (g : Gesture) (rate : Nat) (pos : Int) : Gesture × Nat :=
  let g := if g.len = 0 then
      { g with len := 1, first := pos, last := pos, exc := 0, held := false, second := g.tapGap.isSome, tapGap := none }
    else { g with len := g.len + 1, last := pos, exc := max g.exc (pos - g.first).natAbs }
  if g.second && (g.len > tapScans rate || 32 ≤ g.exc) then ({ g with second := false }, 1)
  else if g.len = longScans rate && g.exc < 32 then ({ g with held := true }, 5)
  else (g, 0)

/-- One scan without contact. A double tap uses up both its episodes: a tap that begins within GAP of its end starts afresh as a single tap (the
model's choice, log entry 28). -/
def Gesture.free (g : Gesture) (rate : Nat) : Gesture × Nat :=
  if g.len ≠ 0 then
    let done := { g with len := 0, second := false }
    if g.len ≤ tapScans rate && g.exc < 32 then
      if g.second then (done, 2) else ({ done with tapGap := some 0 }, 0)
    else if g.held || longScans rate < g.len then (done, 0)
    else if 96 ≤ g.last - g.first then (done, 3)
    else if g.last - g.first ≤ -96 then (done, 4)
    else (done, 0)
  else match g.tapGap with
    | some k => if gapScans rate ≤ k + 1 then ({ g with tapGap := none }, 1) else ({ g with tapGap := some (k + 1) }, 0)
    | none => (g, 0)

/-! ### Scan completion (R245 to R255) -/

/-- The touch summary word after a scan (Table 13-3). -/
def summaryAfter (s : State) (contact : Bool) (key pos event : Nat) (noise suspect : Bool) : BitVec 32 :=
  let old := s.touch.summary.toNat
  let wake := if wakeSelect s then event = 3 else event = 2
  let b (x : Bool) (i : Nat) := if x then 2 ^ i else 0
  let ev := if event = 0 then field old 13 5 * 2 ^ 13
    else event * 2 ^ 13 + b wake 16 + b (field old 13 3 ≠ 0) 17
  BitVec.ofNat 32 (b contact 0 + key * 2 + (if contact then pos else field old 5 8) * 32 + ev + b noise 18 + b suspect 19)

/-- What a completed scan leaves (R245 to R255). `chips`: for each of its drive chips the 16 samples; `listen`: the same for the two listen chips. -/
def scanResult (chips listen : List (List Int)) (s : State) : State :=
  let t := s.touch
  let thn := touchThreshold t.scanSense
  let th := if t.scanNoise then 2 * thn else thn
  let ms := (List.range 128).map fun n => measurement t.scanNoise chips (n / 16) (n % 16)
  let ds := (List.range 128).map (signal s ms)
  let nodes := scanNodes s th ms ds
  let best := strongest nodes ds
  let pos := (best.elim 0 (position s ds)).toNat
  let key := best.elim 0 (keyOf s)
  let rate := touchRate s
  let (g, event) := if best.isSome then t.gesture.contact rate pos else t.gesture.free rate
  let fig := noiseFigure s listen
  let noisy := decide (thn < 2 * (fig : Int))
  let quiet := !t.chg && decide (4 * (fig : Int) ≤ thn)
  { s with touch := { t with
    nodes := nodes
    fresh := false
    scanning := false
    noisy := (noisy :: t.noisy).take 8
    quiet := if quiet then min (t.quiet + 1) 64 else 0
    lastNoise := if noisy then fig else t.lastNoise
    gesture := g
    summary := summaryAfter s best.isSome key pos event t.scanNoise (nodes.any (·.suspect))
    done := true } }

/-- SCAN_COMPLETE. `noise`: the listen chips' samples, with the errors that the reads of the factory map and the touch block find (R333). -/
def execScanComplete (chips : List (List Int)) (noise : ListenRead) (s : State) : Host.Outcome State Fault Refusal :=
  if !(Instr.scanComplete chips noise).wf then .refused (.illFormed "SCAN_COMPLETE")
  else if s.running && s.touch.scanning && chips.length = (if s.touch.scanNoise then 16 else 8) then
    .next (withRomErrors s noise.ups (scanResult chips noise.chips))
  else .next s

end Sys2Proof.Machine
end

