-- ==== Sys2Proof/Machine/Dispatch.lean ====
section
/-!
DEFINITION. `exec`: one direct call of a meaning per command.
-/
namespace Sys2Proof.Machine

def exec (i : Instr) (s : State) : Host.Outcome State Fault Refusal :=
  match i with
  | .aonPowerOn => Sys2Proof.Machine.execAonPowerOn s
  | .aonLoss => Sys2Proof.Machine.execAonLoss s
  | .supervisionStart sel => Sys2Proof.Machine.execSupervisionStart sel s
  | .resetPairReading first second => Sys2Proof.Machine.execResetPairReading first second s
  | .selChangeDigestRead sel => Sys2Proof.Machine.execSelChangeDigestRead sel s
  | .vioValid => Sys2Proof.Machine.execVioValid s
  | .vioInvalid => Sys2Proof.Machine.execVioInvalid s
  | .rstNLow => Sys2Proof.Machine.execRstNLow s
  | .vinBelowVrst => Sys2Proof.Machine.execVinBelowVrst s
  | .vcoreCollapse => Sys2Proof.Machine.execVcoreCollapse s
  | .latchMoment straps vpp => Sys2Proof.Machine.execLatchMoment straps vpp s
  | .digestVerification wake ups => Sys2Proof.Machine.execDigestVerification wake ups s
  | .imagerStepDone p black => Sys2Proof.Machine.execImagerStepDone p black s
  | .limiterTick => Sys2Proof.Machine.execLimiterTick s
  | .slotBoundary adcW adcH priv => Sys2Proof.Machine.execSlotBoundary adcW adcH priv s
  | .abandonAndScrub => Sys2Proof.Machine.execAbandonAndScrub s
  | .barStart => Sys2Proof.Machine.execBarStart s
  | .exposureStart p => Sys2Proof.Machine.execExposureStart p s
  | .thermalSample t => Sys2Proof.Machine.execThermalSample t s
  | .rubatoSenseInjectSample rubato sense inject => Sys2Proof.Machine.execRubatoSenseInjectSample rubato sense inject s
  | .leakSample m => Sys2Proof.Machine.execLeakSample m s
  | .conductorSlot444 wake ups => Sys2Proof.Machine.execConductorSlot444 wake ups s
  | .tacetEventPortDrain elapsed => Sys2Proof.Machine.execTacetEventPortDrain elapsed s
  | .tacetEntryEnd => Sys2Proof.Machine.execTacetEntryEnd s
  | .wakeHighInTacet => Sys2Proof.Machine.execWakeHighInTacet s
  | .aonWakeTimer => Sys2Proof.Machine.execAonWakeTimer s
  | .vwarnTrip => Sys2Proof.Machine.execVwarnTrip s
  | .fermataEntry => Sys2Proof.Machine.execFermataEntry s
  | .vcoreUndervoltage => Sys2Proof.Machine.execVcoreUndervoltage s
  | .fermataEnd => Sys2Proof.Machine.execFermataEnd s
  | .ledInterlockMet => Sys2Proof.Machine.execLedInterlockMet s
  | .ledInterlockOpen current forward => Sys2Proof.Machine.execLedInterlockOpen current forward s
  | .vpixDischarged => Sys2Proof.Machine.execVpixDischarged s
  | .privNFall => Sys2Proof.Machine.execPrivNFall s
  | .planeRestart => Sys2Proof.Machine.execPlaneRestart s
  | .refClkEdge cycles => Sys2Proof.Machine.execRefClkEdge cycles s
  | .refClkTimeout => Sys2Proof.Machine.execRefClkTimeout s
  | .trimRunEnd cycles => Sys2Proof.Machine.execTrimRunEnd cycles s
  | .tokenRefill edges => Sys2Proof.Machine.execTokenRefill edges s
  | .recordRelease => Sys2Proof.Machine.execRecordRelease s
  | .eventPortTransaction edges => Sys2Proof.Machine.execEventPortTransaction edges s
  | .post cue inc ups => Sys2Proof.Machine.execPost cue inc ups s
  | .launchT index => Sys2Proof.Machine.execLaunchT index s
  | .launchS index => Sys2Proof.Machine.execLaunchS index s
  | .sample chg level => Sys2Proof.Machine.execSample chg level s
  | .mark begins => Sys2Proof.Machine.execMark begins s
  | .queueDispatch soli => Sys2Proof.Machine.execQueueDispatch soli s
  | .tuttiDescriptorComplete ups => Sys2Proof.Machine.execTuttiDescriptorComplete ups s
  | .kernelComplete k ups => Sys2Proof.Machine.execKernelComplete k ups s
  | .cropJobComplete ups => Sys2Proof.Machine.execCropJobComplete ups s
  | .sieveJobComplete ups => Sys2Proof.Machine.execSieveJobComplete ups s
  | .attentionJobComplete ups => Sys2Proof.Machine.execAttentionJobComplete ups s
  | .endThreads c g ups => Sys2Proof.Machine.execEndThreads c g ups s
  | .add c g d a b => Sys2Proof.Machine.execAdd c g d a b s
  | .sub c g d a b => Sys2Proof.Machine.execSub c g d a b s
  | .mul c g d a b => Sys2Proof.Machine.execMul c g d a b s
  | .mulh c g d a b => Sys2Proof.Machine.execMulh c g d a b s
  | .mac c g d a b => Sys2Proof.Machine.execMac c g d a b s
  | .dot4s c g d a b => Sys2Proof.Machine.execDot4s c g d a b s
  | .dot4us c g d a b => Sys2Proof.Machine.execDot4us c g d a b s
  | .and c g d a b => Sys2Proof.Machine.execAnd c g d a b s
  | .or c g d a b => Sys2Proof.Machine.execOr c g d a b s
  | .xor c g d a b => Sys2Proof.Machine.execXor c g d a b s
  | .shl c g d a b => Sys2Proof.Machine.execShl c g d a b s
  | .shr c g d a b => Sys2Proof.Machine.execShr c g d a b s
  | .sra c g d a b => Sys2Proof.Machine.execSra c g d a b s
  | .min c g d a b => Sys2Proof.Machine.execMin c g d a b s
  | .max c g d a b => Sys2Proof.Machine.execMax c g d a b s
  | .minu c g d a b => Sys2Proof.Machine.execMinu c g d a b s
  | .maxu c g d a b => Sys2Proof.Machine.execMaxu c g d a b s
  | .abs c g d a => Sys2Proof.Machine.execAbs c g d a s
  | .lzc c g d a => Sys2Proof.Machine.execLzc c g d a s
  | .sel c g d a b p => Sys2Proof.Machine.execSel c g d a b p s
  | .shfl c g d a b => Sys2Proof.Machine.execShfl c g d a b s
  | .rshr c g d a b => Sys2Proof.Machine.execRshr c g d a b s
  | .rsc c g d a b => Sys2Proof.Machine.execRsc c g d a b s
  | .clamp c g d a b => Sys2Proof.Machine.execClamp c g d a b s
  | .bra c g off => Sys2Proof.Machine.execBra c g off s
  | .rpush c off => Sys2Proof.Machine.execRpush c off s
  | .rsync c => Sys2Proof.Machine.execRsync c s
  | .park c g => Sys2Proof.Machine.execPark c g s
  | .ldc c g d a off lc ups => Sys2Proof.Machine.execLdc c g d a off lc ups s
  | .addi c g d a imm => Sys2Proof.Machine.execAddi c g d a imm s
  | .andi c g d a imm => Sys2Proof.Machine.execAndi c g d a imm s
  | .ori c g d a imm => Sys2Proof.Machine.execOri c g d a imm s
  | .xori c g d a imm => Sys2Proof.Machine.execXori c g d a imm s
  | .shli c g d a sh => Sys2Proof.Machine.execShli c g d a sh s
  | .shri c g d a sh => Sys2Proof.Machine.execShri c g d a sh s
  | .srai c g d a sh => Sys2Proof.Machine.execSrai c g d a sh s
  | .lui c g d imm => Sys2Proof.Machine.execLui c g d imm s
  | .sreg c g d imm => Sys2Proof.Machine.execSreg c g d imm s
  | .cmp c g pd cond a b => Sys2Proof.Machine.execCmp c g pd cond a b s
  | .cmpi c g pd cond a imm => Sys2Proof.Machine.execCmpi c g pd cond a imm s
  | .plog c g pd op pa pb => Sys2Proof.Machine.execPlog c g pd op pa pb s
  | .vote c g pd all pa => Sys2Proof.Machine.execVote c g pd all pa s
  | .ldw c g d a off lc ups => Sys2Proof.Machine.execLdw c g d a off lc ups s
  | .ldh c g d a off lc ups => Sys2Proof.Machine.execLdh c g d a off lc ups s
  | .ldhu c g d a off lc ups => Sys2Proof.Machine.execLdhu c g d a off lc ups s
  | .ldb c g d a off lc ups => Sys2Proof.Machine.execLdb c g d a off lc ups s
  | .ldbu c g d a off lc ups => Sys2Proof.Machine.execLdbu c g d a off lc ups s
  | .loadReturn c k lanes => Sys2Proof.Machine.execLoadReturn c k lanes s
  | .stw c g d a off ups => Sys2Proof.Machine.execStw c g d a off ups s
  | .sth c g d a off ups => Sys2Proof.Machine.execSth c g d a off ups s
  | .stb c g d a off ups => Sys2Proof.Machine.execStb c g d a off ups s
  | .waitlc c g count lc => Sys2Proof.Machine.execWaitlc c g count lc s
  | .exp c g d a => Sys2Proof.Machine.execExp c g d a s
  | .rcp c g d a => Sys2Proof.Machine.execRcp c g d a s
  | .rsq c g d a => Sys2Proof.Machine.execRsq c g d a s
  | .cwait c g cue a => Sys2Proof.Machine.execCwait c g cue a s
  | .cpost c g cue inc ups => Sys2Proof.Machine.execCpost c g cue inc ups s
  | .scanStart chg => Sys2Proof.Machine.execScanStart chg s
  | .scanComplete chips noise => Sys2Proof.Machine.execScanComplete chips noise s
  | .effectStart vin => Sys2Proof.Machine.execEffectStart vin s
  | .halfCycleEnd vin emf => Sys2Proof.Machine.execHalfCycleEnd vin emf s
  | .backEmfZeroCrossing gap => Sys2Proof.Machine.execBackEmfZeroCrossing gap s
  | .brakeEnd quiet => Sys2Proof.Machine.execBrakeEnd quiet s
  | .heartbeatSend => Sys2Proof.Machine.execHeartbeatSend s
  | .frameTransmit => Sys2Proof.Machine.execFrameTransmit s
  | .bar f arrival => Sys2Proof.Machine.execBar f arrival s
  | .heartbeat f scheduled => Sys2Proof.Machine.execHeartbeat f scheduled s
  | .verdict f => Sys2Proof.Machine.execVerdict f s
  | .recA f => Sys2Proof.Machine.execRecA f s
  | .recB f => Sys2Proof.Machine.execRecB f s
  | .wake f => Sys2Proof.Machine.execWake f s
  | .swapReq f => Sys2Proof.Machine.execSwapReq f s
  | .swapGo f => Sys2Proof.Machine.execSwapGo f s
  | .notice f => Sys2Proof.Machine.execNotice f s
  | .invalidFrame e => Sys2Proof.Machine.execInvalidFrame e s
  | .retransmitTimeout seq => Sys2Proof.Machine.execRetransmitTimeout seq s
  | .partnerSilenceTimeout => Sys2Proof.Machine.execPartnerSilenceTimeout s
  | .swapGoWithdraw => Sys2Proof.Machine.execSwapGoWithdraw s
  | .acquisitionHoldTimeout => Sys2Proof.Machine.execAcquisitionHoldTimeout s
  | .load h vpp fails => Sys2Proof.Machine.execLoad h vpp fails s
  | .verify h => Sys2Proof.Machine.execVerify h s
  | .darkCal h led frames resp => Sys2Proof.Machine.execDarkCal h led frames resp s
  | .touchCal h scans => Sys2Proof.Machine.execTouchCal h scans s
  | .calWrite h vpp fails => Sys2Proof.Machine.execCalWrite h vpp fails s
  | .read h => Sys2Proof.Machine.execRead h s
  | .seal h => Sys2Proof.Machine.execSeal h s
  | .info h => Sys2Proof.Machine.execInfo h s
  | .privNRise => Sys2Proof.Machine.execPrivNRise s
  | .acquisitionHoldSample priv t => Sys2Proof.Machine.execAcquisitionHoldSample priv t s
  | .coreBaseStepComplete => Sys2Proof.Machine.execCoreBaseStepComplete s
  | .flailoUnknownOpcode op h => Sys2Proof.Machine.execFlailoUnknownOpcode op h s

end Sys2Proof.Machine
end

