-- ==== Sys2Proof/Machine/Pads.lean ====
section
/-!
DEFINITION. The pads as the state drives them: the pad map of Table 03-1 (R53), isolation (R54, R89), the verdict pins and the event port's
outputs by phase (R73, R263, R265), DU_TX (R282), the haptic pads (R256) and the Flailo pads (R55).
-/
namespace Sys2Proof.Machine

/-! ### The pad map (Table 03-1) -/

inductive PadDomain where
  | ground | vin | ana | vio | aon | vana | vpp
deriving DecidableEq, Repr

inductive PadDir where
  | none | supply | input | output | bidir | sink
deriving DecidableEq, Repr

/-- The internal pull: 100 kOhm, 10 kOhm to VSS, 50 kOhm to VSS while the straps are sampled, to PGND, or the PRIV_N pull-down, which no
isolation disconnects (R36, R89). -/
inductive PadPull where
  | none | up | down | down10k | down50k | downPgnd | downAlways
deriving DecidableEq, Repr

/-- The reset state: from the moment the pad's domain becomes valid until reset completes (R53). -/
inductive PadReset where
  | none | highZ | pulled | input | sampling | off | discharged | aonSupply
deriving DecidableEq, Repr

/-- A row of the pad map: pad numbers, domain, direction, pull, reset state. -/
structure PadRow where
  pads : List Nat
  domain : PadDomain
  dir : PadDir
  pull : PadPull
  reset : PadReset
deriving DecidableEq, Repr

/-- Supplies, grounds, camera LED, privacy switch and haptics. -/
def padsPower : List PadRow :=
  [⟨[1, 8, 15, 44], .ground, .none, .none, .none⟩, ⟨[6, 19], .ground, .none, .none, .none⟩, ⟨[2, 3], .vin, .supply, .none, .none⟩,
   ⟨[4, 5], .ana, .output, .none, .highZ⟩, ⟨[7], .ana, .supply, .none, .discharged⟩, ⟨[9], .ana, .supply, .none, .aonSupply⟩,
   ⟨[10], .vin, .supply, .none, .none⟩, ⟨[11], .ana, .supply, .none, .off⟩, ⟨[12], .ana, .supply, .none, .off⟩,
   ⟨[13], .ana, .sink, .none, .off⟩, ⟨[14], .vio, .input, .downAlways, .input⟩, ⟨[16], .vin, .supply, .none, .none⟩,
   ⟨[17, 18], .vin, .output, .downPgnd, .highZ⟩]

/-- Touch lines, inputs from the board, the event port and the verdict pins. -/
def padsSignal : List PadRow :=
  [⟨fromTo 20 27, .vana, .output, .down10k, .pulled⟩, ⟨fromTo 28 43, .vana, .input, .down10k, .pulled⟩, ⟨[45], .vio, .input, .down, .input⟩,
   ⟨[46], .vio, .input, .down, .input⟩, ⟨[47], .aon, .input, .down, .input⟩, ⟨[48], .vio, .input, .down, .input⟩,
   ⟨[49, 61], .vio, .supply, .none, .none⟩, ⟨[50], .vio, .input, .up, .input⟩, ⟨[51], .vio, .input, .down, .input⟩,
   ⟨[52], .vio, .output, .none, .highZ⟩, ⟨[53], .vio, .output, .up, .pulled⟩, ⟨[54], .vio, .output, .down, .pulled⟩,
   ⟨[55, 56, 57], .vio, .output, .up, .pulled⟩, ⟨[58], .vio, .output, .up, .pulled⟩]

/-- The Duet link, straps, resistor codes and Flailo. -/
def padsBoard : List PadRow :=
  [⟨[59], .vana, .output, .down, .pulled⟩, ⟨[60], .vana, .input, .down, .input⟩, ⟨[62, 63, 64], .vio, .input, .down50k, .sampling⟩,
   ⟨[65], .vio, .input, .down50k, .sampling⟩, ⟨[66], .vio, .input, .down50k, .sampling⟩, ⟨[67], .vio, .input, .down50k, .sampling⟩,
   ⟨fromTo 68 73, .ana, .bidir, .none, .off⟩, ⟨[74], .vpp, .supply, .down, .none⟩, ⟨[75], .vio, .input, .down, .input⟩,
   ⟨[76], .vio, .bidir, .down, .input⟩]

def padMap : List PadRow := padsPower ++ padsSignal ++ padsBoard

/-- The row of a pad. -/
def padRow (n : Nat) : Option PadRow := padMap.find? fun r => r.pads.contains n

/-! ### What a pad drives -/

/-- A pad's own driver: high-impedance, or a level. -/
inductive PadDrive where
  | highZ
  | driven (level : Bool)
deriving DecidableEq, Repr

/-- VPP, PRG_CLK and PRG_DAT connect to nothing once the seal is blown (R55). -/
def flailoPadsOn (s : State) : Bool := !s.nvm.sealed

/-- The internal pull of a pad as it stands: rail-failure isolation disconnects every one but PRIV_N's (R89), a strap's pull works while it is
sampled (R58), one to VIO or beside a VIO pad needs VIO (R54), and the Flailo pads have none once the seal is blown (R55). One of the VANA
domain is there whether VANA is on or not (R282; log entry 82). -/
def pullOf (s : State) (n : Nat) : PadPull :=
  match padRow n with
  | none => .none
  | some r =>
    if r.pull = .downAlways then r.pull
    else if s.supply.isolated || (r.domain = .vio && !s.supply.vio) then .none
    else if [74, 75, 76].contains n && !flailoPadsOn s then .none
    else if r.pull = .down50k && s.outOfReset then .none
    else r.pull

/-- The level that a pad shows with nothing else on it: the driven one, or the pull's; none where it floats. -/
def padLevel (s : State) (n : Nat) (d : PadDrive) : Option Bool :=
  match d with
  | .driven b => some b
  | .highZ =>
    match pullOf s n with
    | .none => none
    | .up => some true
    | _ => some false

/-- The VIO-domain outputs drive: VIO is valid, no rail-failure isolation holds, and reset is complete (R54, R73, R89). -/
def vioDrives (s : State) : Bool := s.supply.vio && !s.supply.isolated && s.outOfReset

def driveIf (on level : Bool) : PadDrive := if on then .driven level else .highZ

/-- PRESENT, the GEST pin `i`, TOUCH_N and EVT_N (Table 03-5). -/
def presentDrive (s : State) : PadDrive := driveIf (vioDrives s) s.cond.present
def gestDrive (s : State) (i : Nat) : PadDrive := driveIf (vioDrives s) (s.cond.gest.getLsbD i)
def touchDrive (s : State) : PadDrive := driveIf (vioDrives s) s.cond.touchN
def evtDrive (s : State) : PadDrive := driveIf (vioDrives s) !(evtLow s)

/-- Bit `n` of bytes sent in order, most significant bit first; 0 after the last. -/
def bitOf (bs : List Byte) (n : Nat) : Bool := ((bs[n / 8]?).getD 0).getMsbD (n % 8)

/-- Bit `n` of a record on EV_SDO, before the rising edge `n` + 1 of EV_SCK (R263). -/
def sdoBit (r : Record) (n : Nat) : Bool := bitOf r.toList n

/-- EV_SDO while EV_CS_N is low (`selected`) or high, after `n` rising edges; `r` is the record that the transaction serves (R263, Table
03-5). -/
def sdoDrive (s : State) (selected : Bool) (r : Record) (n : Nat) : PadDrive :=
  driveIf (vioDrives s && s.port.on && selected) (sdoBit r n)

/-- DU_TX (R282): high-impedance while the link is off, low between frames; `bit`: the line's level in a frame that is being sent. The link
is on until a reset's step 3 has ended (R303). -/
def duTxDrive (s : State) (bit : Option Bool) : PadDrive :=
  driveIf (s.supply.vana && !s.supply.isolated && (s.outOfReset || s.cond.phase = .resetEntry) && s.duet.link ≠ .off) (bit.getD false)

/-- The haptic pads are driven while the bridge drives, and lie at PGND through their pull-downs otherwise (R256, R262). -/
def lraDrives (s : State) : Bool := !s.supply.isolated && s.accent.bridge ≠ .off

/-- Where an exchange over PRG_CLK and PRG_DAT stands (R324): the fixture clocks a command in; it has released PRG_DAT and the module is busy,
or ready; or the fixture has given `n` falling edges while it clocks the response out. -/
inductive PrgMoment where
  | command
  | busy
  | ready
  | response (n : Nat)
deriving DecidableEq, Repr

/-- PRG_DAT as the module drives it in Flailo mode (R324): low while busy, high when ready, and from the falling edge `n` on bit `n - 1` of the
response, most significant bit first (log entry 40). -/
def prgDatDrive (s : State) (m : PrgMoment) : PadDrive :=
  if s.cond.phase ≠ .flailo || !flailoPadsOn s || !s.supply.vio || s.supply.isolated then .highZ
  else
    match m with
    | .command => .highZ
    | .busy => .driven false
    | .ready | .response 0 => .driven true
    | .response (n + 1) => if n < 8 * s.flailo.response.length then .driven (bitOf s.flailo.response n) else .highZ

end Sys2Proof.Machine
end

