-- ==== Sys2Proof/Safety.lean ====
section
/-!
DEFINITION. The predicates that the statements use: the invariant of every run, the section that issues an instruction and what an
instruction changes in it, and the operations of the instruction tables as the manual writes them.
-/
namespace Sys2Proof.Safety

open Sys2Proof.Machine

/-- What holds of every state that a run reaches: memory in its canonical form, the bounds that the manual gives to the token count (R39),
the accumulator (R274), the rings (R276, R286), the queues (R147, R148), the slot number (R7), the pin-sample word's reserved bits (Table
07-4) and the staged defects (R326). -/
structure Inv (s : State) : Prop where
  ram : s.ram.wf = true
  otp : cellsWf s.nvm.otp = true
  tokens : s.aon.tokens ≤ 8
  acc : s.aon.acc < 32960
  full : s.aon.tokens = 8 → s.aon.acc = 0
  ring : s.port.ring.length ≤ 64
  q3 : s.duet.q3.length ≤ 16
  q0 : s.exec.q0.length ≤ 32
  q1 : s.exec.q1.length ≤ 32
  tutti : s.exec.tutti.length ≤ 8
  soli : s.exec.soli.length ≤ 8
  slot : s.metro.slot < 448
  pins : s.exec.pins.toNat < 4
  defects : s.flailo.staged.defects.length ≤ 512

/-! ### Soli sections -/

/-- The section in context `c` runs, and `i` is the instruction that it fetches next. -/
structure Issues (s : State) (c : Ctx) (x : Section) (i : Instr) : Prop where
  here : s.section c = some x
  running : x.ended = false
  fetched : nextInstr s c x = i

/-- From section `x` to `y` the register `d` of each acting lane has taken the value that `f` gives the lane, and the next word follows:
v0 reads 0 before and after, the other lanes, registers and predicates and everything else of the section are as they were. -/
structure WroteReg (x y : Section) (g : Guard) (d : Reg) (f : Fin 16 → Word) : Prop where
  regs : ∀ (k : Fin 16) (r : Reg), y.lanes[k].reg r = if x.acts g k && decide (r = d) && decide (r ≠ 0) then f k else x.lanes[k].reg r
  preds : ∀ k : Fin 16, y.lanes[k].preds = x.lanes[k].preds
  rest : y = { x with lanes := y.lanes, pc := x.pc + 1 }

/-- From section `x` to `y` the predicate `p` of each acting lane has taken a value, and the next word follows; p0 reads 1 before and
after. -/
structure WrotePred (x y : Section) (g : Guard) (p : BitVec 3) (f : Fin 16 → Bool) : Prop where
  preds : ∀ (k : Fin 16) (r : BitVec 3), y.lanes[k].pred r = if x.acts g k && decide (r = p) && decide (r ≠ 0) then f k else x.lanes[k].pred r
  regs : ∀ k : Fin 16, y.lanes[k].regs = x.lanes[k].regs
  rest : y = { x with lanes := y.lanes, pc := x.pc + 1 }

abbrev Form3 := Ctx → Guard → Reg → Reg → Reg → Instr

/-- D = f A B (Table 10-3). -/
def threeReg : List (Form3 × (Word → Word → Word)) :=
  [(.add, fun a b => a + b), (.sub, fun a b => a - b), (.mul, fun a b => a * b),
   (.mulh, fun a b => (a.signExtend 64 * b.signExtend 64).extractLsb' 32 32),
   (.and, fun a b => a &&& b), (.or, fun a b => a ||| b), (.xor, fun a b => a ^^^ b),
   (.shl, fun a b => a <<< (b.toNat % 32)), (.shr, fun a b => a >>> (b.toNat % 32)), (.sra, fun a b => a.sshiftRight (b.toNat % 32)),
   (.min, fun a b => if a.slt b then a else b), (.max, fun a b => if a.slt b then b else a),
   (.minu, fun a b => if a.ult b then a else b), (.maxu, fun a b => if a.ult b then b else a),
   (.rshr, fun a b => BitVec.ofInt 32 (rshift a.toInt (b.toNat % 32))),
   (.clamp, fun a b => BitVec.ofInt 32 (min (max a.toInt (b.extractLsb' 0 16).toInt) (b.extractLsb' 16 16).toInt))]

/-- Byte `i` of a word as a signed number, and as an unsigned one. -/
def sbyte (a : Word) (i : Nat) : Word := (a.extractLsb' (8 * i) 8).signExtend 32
def ubyte (a : Word) (i : Nat) : Word := (a.extractLsb' (8 * i) 8).setWidth 32

/-- D = f D A B (Table 10-3). -/
def accumulators : List (Form3 × (Word → Word → Word → Word)) :=
  [(.mac, fun d a b => d + a * b),
   (.dot4s, fun d a b => d + (sbyte a 0 * sbyte b 0 + sbyte a 1 * sbyte b 1 + sbyte a 2 * sbyte b 2 + sbyte a 3 * sbyte b 3)),
   (.dot4us, fun d a b => d + (ubyte a 0 * sbyte b 0 + ubyte a 1 * sbyte b 1 + ubyte a 2 * sbyte b 2 + ubyte a 3 * sbyte b 3))]

/-- Position of the highest set bit of a word that is not 0, and the 9 bits below it (R204). -/
def top (a : Word) : Nat := Nat.log2 a.toNat
def below (a : Word) : Nat := (a.toNat - 2 ^ top a) * 512 / 2 ^ top a

/-- What the instructions with one source register do, as a relation of A and D (Table 10-3, R204). No value of EXP lies halfway between two
whole numbers, so the bound names its rounding. -/
def oneReg : List ((Ctx → Guard → Reg → Reg → Instr) × (Word → Word → Prop)) :=
  [(.abs, fun a d => d.toNat = a.toInt.natAbs),
   (.lzc, fun a d => d.toNat ≤ 32 ∧ a.toNat < 2 ^ (32 - d.toNat) ∧ (d.toNat < 32 → 2 ^ (31 - d.toNat) ≤ a.toNat)),
   (.exp, fun a d => |(d.toNat : ℝ) - 32768 * Real.exp (((max (-4096) (min a.toInt 0) : Int) : ℝ) / 256)| ≤ 1 / 2),
   (.rcp, fun a d =>
      if a = 0 then d = 0xFFFFFFFF
      else
        let m := d.toNat % 2 ^ 24
        d.toNat / 2 ^ 24 = top a ∧ 2 * ((m * (512 + below a) : Nat) - 2 ^ 32 : Int).natAbs ≤ 512 + below a),
   (.rsq, fun a d =>
      if a = 0 then d = 0xFFFFFFFF
      else
        let m := d.toNat % 2 ^ 24
        let v := (512 + below a) * 2 ^ (top a % 2)
        d.toNat / 2 ^ 24 = top a / 2 ∧ (2 * m - 1) ^ 2 * v ≤ 2 ^ 57 ∧ 2 ^ 57 ≤ (2 * m + 1) ^ 2 * v)]

/-- D = f A IMM12. -/
def immediates : List ((Ctx → Guard → Reg → Reg → BitVec 12 → Instr) × (Word → BitVec 12 → Word)) :=
  [(.addi, fun a i => a + i.signExtend 32), (.andi, fun a i => a &&& i.setWidth 32), (.ori, fun a i => a ||| i.setWidth 32),
   (.xori, fun a i => a ^^^ i.setWidth 32)]

/-- D = f A SH5. -/
def shifts : List ((Ctx → Guard → Reg → Reg → BitVec 5 → Instr) × (Word → BitVec 5 → Word)) :=
  [(.shli, fun a n => a <<< n.toNat), (.shri, fun a n => a >>> n.toNat), (.srai, fun a n => a.sshiftRight n.toNat)]

/-- The comparison of CMP and CMPI (R197). -/
def compares (k : Cond) (a b : Word) : Bool :=
  match k with
  | .eq => a == b
  | .ne => a != b
  | .lt => a.slt b
  | .ge => !a.slt b
  | .ltu => a.ult b
  | .geu => !a.ult b

/-- Loads: size, and whether the value is sign-extended (Table 10-3). -/
def loads : List ((Ctx → Guard → Reg → Reg → BitVec 10 → BitVec 2 → List Upset → Instr) × Nat × Bool) :=
  [(.ldw, 4, false), (.ldh, 2, true), (.ldhu, 2, false), (.ldb, 1, true), (.ldbu, 1, false)]

/-- Stores and their sizes. -/
def stores : List ((Ctx → Guard → Reg → Reg → BitVec 10 → List Upset → Instr) × Nat) := [(.stw, 4), (.sth, 2), (.stb, 1)]

/-- The store of lane `k` is accepted and holds the byte at address `p`. -/
def storesAt (s : State) (x : Section) (g : Guard) (a : Reg) (size : Nat) (off : BitVec 10) (k : Fin 16) (p : Nat) : Bool :=
  let q := laneAddr x k a size off
  x.acts g k && decide (q % size = 0) && ramOpen s q && decide (q ≤ p) && decide (p < q + size)

/-- The word that holds `p` reads as zero after a step that touches it: it holds an uncorrectable error, or `ups` gives it one now. -/
def spoilt (s : State) (x : Section) (g : Guard) (a : Reg) (size : Nat) (off : BitVec 10) (ups : List Upset) (p : Nat) : Bool :=
  s.ram.flags.contains (p / 8) && (s.ram.bad.contains (p / 8)
    || ((touched s x g a size off).contains (p / 8) && ups.any fun u => u.multi && inRam u.addr && decide (u.addr / 8 = p / 8)))

/-- The instruction of a word for context `c`: the same instruction there, with no observed errors. -/
def soliPlain (c : Ctx) (i : Instr) : Instr :=
  match i with
  | .endThreads _ g _ => .endThreads c g []
  | .add _ g d a b => .add c g d a b
  | .sub _ g d a b => .sub c g d a b
  | .mul _ g d a b => .mul c g d a b
  | .mulh _ g d a b => .mulh c g d a b
  | .mac _ g d a b => .mac c g d a b
  | .dot4s _ g d a b => .dot4s c g d a b
  | .dot4us _ g d a b => .dot4us c g d a b
  | .and _ g d a b => .and c g d a b
  | .or _ g d a b => .or c g d a b
  | .xor _ g d a b => .xor c g d a b
  | .shl _ g d a b => .shl c g d a b
  | .shr _ g d a b => .shr c g d a b
  | .sra _ g d a b => .sra c g d a b
  | .min _ g d a b => .min c g d a b
  | .max _ g d a b => .max c g d a b
  | .minu _ g d a b => .minu c g d a b
  | .maxu _ g d a b => .maxu c g d a b
  | .abs _ g d a => .abs c g d a
  | .lzc _ g d a => .lzc c g d a
  | .sel _ g d a b p => .sel c g d a b p
  | .shfl _ g d a b => .shfl c g d a b
  | .rshr _ g d a b => .rshr c g d a b
  | .rsc _ g d a b => .rsc c g d a b
  | .clamp _ g d a b => .clamp c g d a b
  | .bra _ g off => .bra c g off
  | .rpush _ off => .rpush c off
  | .rsync _ => .rsync c
  | .park _ g => .park c g
  | .ldc _ g d a off lc _ => .ldc c g d a off lc []
  | .addi _ g d a imm => .addi c g d a imm
  | .andi _ g d a imm => .andi c g d a imm
  | .ori _ g d a imm => .ori c g d a imm
  | .xori _ g d a imm => .xori c g d a imm
  | .shli _ g d a sh => .shli c g d a sh
  | .shri _ g d a sh => .shri c g d a sh
  | .srai _ g d a sh => .srai c g d a sh
  | .lui _ g d imm => .lui c g d imm
  | .sreg _ g d imm => .sreg c g d imm
  | .cmp _ g pd k a b => .cmp c g pd k a b
  | .cmpi _ g pd k a imm => .cmpi c g pd k a imm
  | .plog _ g pd op pa pb => .plog c g pd op pa pb
  | .vote _ g pd all pa => .vote c g pd all pa
  | .ldw _ g d a off lc _ => .ldw c g d a off lc []
  | .ldh _ g d a off lc _ => .ldh c g d a off lc []
  | .ldhu _ g d a off lc _ => .ldhu c g d a off lc []
  | .ldb _ g d a off lc _ => .ldb c g d a off lc []
  | .ldbu _ g d a off lc _ => .ldbu c g d a off lc []
  | .stw _ g d a off _ => .stw c g d a off []
  | .sth _ g d a off _ => .sth c g d a off []
  | .stb _ g d a off _ => .stb c g d a off []
  | .waitlc _ g count lc => .waitlc c g count lc
  | .exp _ g d a => .exp c g d a
  | .rcp _ g d a => .rcp c g d a
  | .rsq _ g d a => .rsq c g d a
  | .cwait _ g cue a => .cwait c g cue a
  | .cpost _ g cue inc _ => .cpost c g cue inc []
  | i => i

/-- From section `x` to `y` pop_next of R199 has run: the topmost entry with a live lane gives mask and address, entries without one are
discarded, and with no entry left the section ends. -/
inductive Popped : Section → Section → Prop where
  | ends (x : Section) : x.stack = [] → Popped x { x with ended := true, active := 0, live := 0, stack := [] }
  | goes (x : Section) (m : BitVec 16) (a : Int) (r : List (BitVec 16 × Int)) :
      x.stack = (m, a) :: r → m &&& x.live ≠ 0 → Popped x { x with active := m &&& x.live, pc := a, stack := r }
  | skips (x y : Section) (m : BitVec 16) (a : Int) (r : List (BitVec 16 × Int)) :
      x.stack = (m, a) :: r → m &&& x.live = 0 → Popped { x with stack := r } y → Popped x y

/-! ### Other predicates -/

/-- What a reset leaves as it is (R39, R46, R90, R98, R103, R114, R277, R325). -/
def keptByReset (s t : State) : Prop :=
  t.nvm = s.nvm ∧ t.aon.tokens = s.aon.tokens ∧ t.aon.acc = s.aon.acc ∧ t.aon.leak = s.aon.leak ∧ t.aon.seq = s.aon.seq
    ∧ t.aon.idle = s.aon.idle ∧ t.aon.trim = s.aon.trim ∧ t.aon.bar = s.aon.bar ∧ t.aon.lock = s.aon.lock
    ∧ t.vpix.closed = s.vpix.closed ∧ t.boot.straps = s.boot.straps ∧ t.boot.digest = s.boot.digest

/-- Steps 6 to 4 of Table 04-6 have been done and the blocks are as the start of a reset leaves them (R37, R56, R90, R262, R276): no memory,
queue, operation or ring entry is left, the planes are off, the sink stays on while VPIX is up (R31), PRIV_N reads asserted, the pins are at
their reset levels, and ENTRY is `entry`. -/
def tornDown (t : State) (entry : Nat) : Prop :=
  t.boot.entry = entry ∧ t.boot.started = false ∧ t.ram = Ram.empty ∧ t.exec = Exec.zero ∧ t.port.ring = []
    ∧ t.port.on = false ∧ t.planeW.power = .off ∧ t.planeH.power = .off ∧ t.vpix.ldo = false
    ∧ t.vpix.sink = t.vpix.above
    ∧ t.priv.asserted = true ∧ t.inj.code = 0 ∧ t.limiter.on = false ∧ t.accent = Accent.off ∧ t.touch = Touch.off
    ∧ t.fermata = none ∧ t.cond.present = false ∧ t.cond.gest = 7 ∧ t.cond.touchN = true

/-- From `s` to `t` another `n` records or messages count as drops (R276). -/
def Dropped (s t : State) (n : Nat) : Prop := t.aon.drops = if n = 0 then s.aon.drops else min (s.aon.drops + n) 65535

/-- The records and messages that wait in the rings, and the partner's that wait for slot 444. -/
def waiting (s : State) : Nat := s.port.ring.length + s.duet.q3.length + s.duet.relayed.length

/-- The module is held in reset, its link off. `tx`: the frame that the link sent last. -/
def inReset (t : State) (entry : Nat) (tx : Option FrameBytes) : Prop :=
  t.cond.phase = .reset ∧ tornDown t entry ∧ t.duet = { Duet.off with tx := tx } ∧ t.metro.on = false

/-- A reset that RST_N or VIO has begun from `s` waits in step 3 of Table 04-6 for the token of its NOTICE (R90, R303): slots go on in the state that
was in force and without a schedule, the link is up, and its queue ends with a NOTICE, unless it holds that of Tacet entry or is full. -/
def inResetEntry (s t : State) (entry : Nat) : Prop :=
  t.cond.phase = .resetEntry ∧ tornDown t entry ∧ t.cond.state = s.cond.state ∧ t.cond.wait = 0
    ∧ t.metro.on = true ∧ t.metro.slot = s.metro.slot ∧ t.metro.len = s.metro.len ∧ t.metro.sched = false ∧ t.metro.issue = []
    ∧ t.duet.link = .up
    ∧ ((∃ m ∈ s.duet.q3, m.type = 9) ∨ 16 ≤ s.duet.q3.length → t.duet = s.duet)
    ∧ ((∀ m ∈ s.duet.q3, m.type ≠ 9) → s.duet.q3.length < 16 → ∃ m, t.duet = { s.duet with q3 := s.duet.q3 ++ [m] } ∧ m.type = 9 ∧ m.released = false)

/-- The state that the next slot 0 puts in force, as far as the bar has chosen one. -/
def nextState (s : State) : Nat :=
  match s.cond.next with
  | some .pianissimo => 1
  | some .mezzo => 2
  | some .forte => 3
  | _ => s.st

/-! ### Slot 444 -/

/-- The bar read what its state reads, and its verdict came in time (R126, R317, R334). -/
structure Whole (s : State) : Prop where
  taken : s.cond.taken = true
  sched : s.metro.sched = true
  live : s.fermata = none
  restart : s.priv.restart = false
  planes : (∃ p, stPlane s s.st p = true) → s.priv.byThermal = false ∧ s.priv.byLed = false ∧ s.priv.byPath = false

/-- The bar's verdict is fresh: whole, and of a bar that ran under one range (R74). -/
def Fresh (s : State) : Prop := Whole s ∧ s.cond.dirty = false

/-- The element that byte `k` of the state's verdict block names, when the byte's EN bit is set, else 0 (Table 16-5). -/
def named (s : State) (v : Vector Byte 64) (k : Nat) : Nat :=
  if bitAt (verdictU s s.st k 1) 7 then ((v[field (verdictU s s.st k 1) 0 6]?).getD 0).toNat else 0

/-- From `s` slot 444 counts one more bar without a fresh verdict (R74, R75): `stale` bars, and a hold sum of `hold` in 1/7200 s. A bar that a
PRIV toggle alone has spoilt adds nothing while it is the first (log entry 66). -/
def Counted (s : State) (stale hold : Nat) : Prop :=
  stale = s.cond.stale + 1 ∧ (s.cond.stale = 0 ∧ Whole s → hold = s.cond.hold)
    ∧ (¬(s.cond.stale = 0 ∧ Whole s) → hold = s.cond.hold + 7200 * stDivisor s s.st / tempoRate s.boot.tempo)

/-- In Pianissimo the summary word shows a wake gesture, which the verdict map turns into a pin verdict (R255). -/
def Woken (s : State) : Prop := s.cond.state = .pianissimo ∧ s.touch.summary.getLsbD 16 = true

/-- PRESENT and GEST as slot 444 leaves them where it chooses no Tacet, outside fermata (R18, R73 to R75, R255, R299, R319): a follower's rest levels, the
map of a fresh verdict, the fall-backs without one; a wake gesture in Pianissimo then drives each of them that the map drives, to a free value
(log entry 85). -/
def Pins (s : State) (present : Bool) (gest : BitVec 3) : Prop :=
  (s.follower = true → present = false ∧ gest = 7)
    ∧ (s.follower = false → ∃ (p : Bool) (g : BitVec 3),
        (Fresh s →
          let v := appliedVerdict s
          let b := verdictU s s.st 0 1
          (p = true ↔ bitAt b 7 = true ∧ verdictU s s.st 1 1 ≤ ((v[field b 0 6]?).getD 0).toNat)
            ∧ g.toNat = if named s v 2 ≤ 6 then named s v 2 else 0)
        ∧ (¬Fresh s → ∀ stale hold, Counted s stale hold →
          g = (if 2 ≤ stale then 7 else s.cond.gest) ∧ p = (s.cond.present && !(decide (2 ≤ stale) && decide (1800 * pHold s ≤ hold))))
        ∧ (¬Woken s → present = p ∧ gest = g)
        ∧ (Woken s → present = (if bitAt (verdictU s s.st 0 1) 7 then (Config.wakeVerdict s.touch.summary (p, g)).1 else p)
            ∧ gest = (if bitAt (verdictU s s.st 2 1) 7 then (Config.wakeVerdict s.touch.summary (p, g)).2 else g)))

/-- A rule of the state table holds for these pins and this level of WAKE (R314, Table 16-3). -/
def RuleHolds (r : Nat) (present : Bool) (gest : BitVec 3) (wake : Bool) : Prop :=
  (field r 4 2 = 0 ∨ (field r 4 2 = 1 ∧ present = false) ∨ (field r 4 2 = 2 ∧ present = true))
    ∧ (field r 6 8 = 0 ∨ bitAt (field r 6 8) gest.toNat = true)
    ∧ (field r 15 2 = 0 ∨ (field r 15 2 = 1 ∧ wake = false) ∨ (field r 15 2 = 2 ∧ wake = true))

/-- Rule `i` qualifies with these counts (R314). -/
def Qualifies (s : State) (counts : List Nat) (i : Nat) : Prop :=
  let r := stateRule s i
  i < nRule s ∧ (field r 0 2 = 0 ∨ field r 0 2 = s.st) ∧ field r 17 11 ≤ counts.getD i 0 ∧ field r 2 2 ≠ s.st

/-- Slot 444 of `s`, outside fermata and without a forced Tacet, makes the choice that `t` holds: from the rules' counts on a module that decides for
itself, from the leader's state on a follower, from a NOTICE; limited by floor and caps (R22, R44, R98, R298, R302, R303, R314). -/
def Chooses (s t : State) (wake : Bool) : Prop :=
  ∃ (present : Bool) (gest : BitVec 3) (counts : List Nat) (base : PState) (high : Bool),
    Pins s present gest
      ∧ (high = true ↔ wake = true ∨ ∃ w ∈ s.duet.wakes, 1 ≤ (s.aon.bar - w.1).toNat ∧ (s.aon.bar - w.1).toNat ≤ w.2.toNat)
      ∧ (∀ i, i < nRule s → (RuleHolds (stateRule s i) present gest high → counts.getD i 0 = min (s.cond.rules.getD i 0 + 1) 2047)
          ∧ (¬RuleHolds (stateRule s i) present gest high → counts.getD i 0 = 0))
      ∧ (s.follower = false → t.cond.rules = counts)
      ∧ (s.duet.noticed = true → base = .tacet)
      ∧ (s.duet.noticed = false → s.follower = true → base = s.duet.pState.getD s.cond.state)
      ∧ (s.duet.noticed = false → s.follower = false →
          (∀ i, Qualifies s counts i → (∀ j, j < i → ¬Qualifies s counts j) → base = PState.ofNum (field (stateRule s i) 2 2))
            ∧ ((∀ i, ¬Qualifies s counts i) → base = s.cond.state))
      ∧ let cap := if s.thermal.throttle || s.inject 4 || s.aon.warnCap || s.aon.capNext then min (maxState s) 2 else maxState s
        let n := PState.ofNum (min cap (max (if high then 2 else 0) base.num))
        t.cond.next = if n = .tacet then some .tacet else if n = s.cond.state then none else some n

/-- The detectors of which slot 444 enqueues a record (Table 17-1, R43, R91, R98, R331). -/
def faultsAt444 (s : State) : List Nat :=
  ((fromTo 1 15) ++ [18, 19]).filter fun d =>
    let x := s.det d
    if d = 1 then s.aon.capNext && s.fermata.isNone
    else if d = 3 then false
    else if d = 6 || d = 12 then x.pending && x.since.all (64 ≤ ·)
    else if d = 15 then x.pending && !s.cond.overrunRec
    else if d = 18 then !s.nvm.sealed
    else if d = 19 then s.metro.sched && s.fermata.isNone && s.aon.unclean.isSome
    else x.pending

/-- TYPE and SRC of a record, with what tells records of a type apart: of a fault record its DET, of a state-change record its CAUSE, of the
module's other records STALE. -/
def recordKey (e : RingEntry) : Nat × Nat × Nat :=
  let type := (e.data[1]).toNat - 16
  let src := (e.data[7]).toNat / 16
  (type, src, if src = 1 then 0 else if 7 ≤ type then (e.data[8]).toNat else (e.data[3]).toNat % 2)

/-- The records that the verdict map plans in this bar (R41, R42, R318). -/
def plannedKeys (s : State) (stale : Bool) : List (Nat × Nat × Nat) :=
  (List.range 6).flatMap fun i =>
    let p := planEntry s s.st i
    let type := field p 0 4
    let period := field p 4 8
    if type ≠ 0 && period ≠ 0 && s.cond.plan % period = period - 1 then
      List.replicate (if type = 4 then 3 else 1)
        (type, if type = 6 then 0 else if s.leader && !s.duet.handover then 2 else 0, if stale then 1 else 0)
    else []

/-- The causes of the state-change records of slot 444 of `s`, which leads to `t`: a change, a code, the partner, Tacet (R271). -/
def Causes (s t : State) (causes : List Nat) : Prop :=
  let enters := t.cond.next = some .tacet ∧ (s.fermata = none ∨ s.cond.next ≠ some .tacet)
  let code := [s.codes.rubato, s.codes.sense, s.codes.inject, s.codes.leak].any fun c => c.conf.isSome
  causes.Pairwise (· < ·)
    ∧ ∀ c : Nat, c ∈ causes ↔ (c = 2 ∧ s.fermata = none ∧ t.cond.next.isSome ∧ t.cond.next ≠ some .tacet) ∨ (c = 4 ∧ code = true ∧ ¬enters)
        ∨ (c = 5 ∧ s.duet.change = true) ∨ (c = 6 ∧ enters)

/-- The keys of the fault records by ascending DET, of the record of a start that ends here, and of the state-change records by ascending CAUSE. -/
def eventKeys (s : State) (causes : List Nat) : List (Nat × Nat × Nat) :=
  (faultsAt444 s).map (fun d => (8, 0, d)) ++ (if s.cond.starting then [(7, 0, s.cond.cause % 256)] else [])
    ++ causes.map fun c => (7, 0, c)

/-- TYPE of a record that a REC_A frame carries, with its DET, its CAUSE or its STALE flag (Table 15-4). -/
def relayKey (m : Msg) : Nat × Nat :=
  let type := (m.body[0]).toNat
  (type, if 7 ≤ type then (m.body[2]).toNat else (m.body[1]).toNat % 2)

/-- PRESENT and GEST in a follower's VERDICT frame (R300, R319): as its own verdict map drives them, 0 and 7 with FRESH 0 (log entry 91); a wake gesture
in Pianissimo drives each that the map drives, to a free value (R255, log entry 85). -/
def FramePins (s : State) (present : Bool) (gest : BitVec 3) : Prop :=
  let v := s.cond.latch
  let b := verdictU s s.st 0 1
  ∃ (p : Bool) (g : BitVec 3),
    (p = true ↔ Fresh s ∧ bitAt b 7 = true ∧ verdictU s s.st 1 1 ≤ ((v[field b 0 6]?).getD 0).toNat)
      ∧ (Fresh s → g.toNat = if named s v 2 ≤ 6 then named s v 2 else 0) ∧ (¬Fresh s → g = 7)
      ∧ (¬Woken s → present = p ∧ gest = g)
      ∧ (Woken s → present = (if bitAt b 7 then (Config.wakeVerdict s.touch.summary (p, g)).1 else p)
          ∧ gest = (if bitAt (verdictU s s.st 2 1) 7 then (Config.wakeVerdict s.touch.summary (p, g)).2 else g))

/-! ### Injection -/

/-- From `u` to `t` a trip of a fermata's detector has restarted the 2-beat count of a fermata that goes on (R96, R97). -/
def Held (u t : State) : Prop :=
  ∀ f, u.fermata = some f → t.fermata = some { f with released := false } ∧ t.fermataNext = u.fermataNext
    ∧ t.limiter = { u.limiter with paused := u.limiter.on }

/-- From `u`, the state of slot 0 after its fixed actions, to `t` injection code `c` has forced its trip (R338, R339, Table 17-3). -/
def Forced (c : Nat) (u t : State) : Prop :=
  let hit (d : Nat) := (t.det d).pending = true ∧ (t.det d).injected = true ∧ (t.det d).count = min ((u.det d).count + 1) 65535
  let stops := t.exec.stopped = true ∧ t.exec.abandon = true ∧ t.metro.issue = [] ∧ t.exec.q0 = [] ∧ t.exec.q1 = []
  (c = 1 → hit 1 ∧ (u.fermata = none → t.fermataNext = some true) ∧ Held u t ∧ t.aon.warnings.sum = u.aon.warnings.sum + 1)
    ∧ (c = 2 → inReset t 4 u.duet.tx ∧ t.supply.isolated = true ∧ t.aon.lock = some 2
        ∧ t.aon.unclean.any (fun x => x.step = 0 && x.detail = 0 && x.injected))
    ∧ (c = 3 → hit 3 ∧ (u.fermata = none → t.fermataNext = some (u.fermataNext.getD false)) ∧ Held u t)
    ∧ (c = 4 → u.thermal.throttle = false → hit 4)
    ∧ (c = 5 → (u.thermal.shutdown = false → hit 5) ∧ t.priv.byThermal = true ∧ t.priv.stop = true ∧ t.priv.ldoOff = true)
    ∧ (c = 7 → hit 7 ∧ stops ∧ t.ram = u.ram)
    ∧ (c = 8 → hit 8 ∧ stops ∧ t.ram = u.ram ∧ t.cond.force = true ∧ t.aon.lock = some 8)
    ∧ (c = 9 → hit 9 ∧ t.cond.force = true ∧ t.aon.lock = some 9)
    ∧ (c = 10 → u.vpix.ldo = true → hit 10 ∧ t.vpix.ldo = false ∧ t.priv.byLed = true ∧ t.priv.stop = true)
    ∧ (c = 11 → u.vpix.ldo = true → hit 11 ∧ t.vpix.ldo = false ∧ t.priv.byPath = true ∧ t.priv.stop = true)
    ∧ (c = 13 → u.duet.link = .up → hit 13 ∧ t.duet.link = .seeking ∧ t.duet.q3 = [] ∧ t.duet.flight = [])
    ∧ (c = 15 → hit 15 ∧ stops)
    ∧ (c ∉ [1, 2, 3, 4, 5, 7, 8, 9, 10, 11, 13, 15] → t = u)

/-! ### Frames -/

/-- The frame that a command of the Duet link receives. -/
def frameIn (i : Instr) : Option FrameBytes :=
  match i with
  | .bar f _ => some f
  | .heartbeat f _ => some f
  | .verdict f => some f
  | .recA f => some f
  | .recB f => some f
  | .wake f => some f
  | .swapReq f => some f
  | .swapGo f => some f
  | .notice f => some f
  | _ => none

/-- A reserved bit is set or a field holds a value that its table marks invalid, in a frame of type 1 to 9 (Tables 15-1, 15-3, 15-4). -/
def ReservedSet (f : FrameBytes) : Prop :=
  let t := fType f
  let b := fByte f
  64 ≤ b 1
    ∨ ((t = 1 ∨ t = 2) ∧ (128 ≤ b 4 ∨ 10 ≤ b 4 % 16 ∨ 32 ≤ b 6))
    ∨ (t = 3 ∧ (32 ≤ b 4 ∨ 16 ≤ b 7))
    ∨ ((t = 4 ∨ t = 7 ∨ t = 8) ∧ 16 ≤ b 2)
    ∨ (t = 9 ∧ b 2 ≠ 1)
    ∨ ∃ k, k < 14 ∧ b k ≠ 0 ∧ ((t = 5 ∧ 12 ≤ k) ∨ (t = 6 ∧ 5 ≤ k) ∨ (t = 7 ∧ 3 ≤ k) ∨ (t = 8 ∧ 5 ≤ k) ∨ (t = 9 ∧ 3 ≤ k))

/-- A valid frame of a type, received on an enabled link without a held injection at code 12. -/
def Arrives (s : State) (f : FrameBytes) (type : Nat) : Prop :=
  s.duet.link ≠ .off ∧ s.inject 12 = false ∧ frameFault f = none ∧ fType f = type

/-- A valid message frame that an up link executes: its number is not among the last 4 executed. -/
def Executes (s : State) (f : FrameBytes) (type : Nat) : Prop :=
  Arrives s f type ∧ s.duet.link = .up ∧ s.duet.memory.contains (fSeq f) = false

/-- The state after a message frame has been taken and before it acts: the partner is heard, an acknowledgement that it carries is taken, its
own is due, and its number is remembered. -/
def messageTaken (s : State) (f : FrameBytes) : State :=
  let s := takeAck { s with duet := { s.duet with quiet := 0 } } f
  { s with duet := { s.duet with acks := s.duet.acks ++ [fSeq f], memory := (fSeq f :: s.duet.memory).take 4 } }

/-- From `s` to `t` the link has gone down to seeking (R292): its queue, retries, half records, partner, requests and commitments are gone, the
discarded messages are counted with the partner's records that wait (R281, R309), and a CAUSE 5 record is planned; the windows of received WAKE
frames (R302) and the STATE of the latest BAR (R298) stay. -/
def Down (s t : State) : Prop :=
  t.duet.link = .seeking ∧ t.duet.q3 = [] ∧ t.duet.flight = [] ∧ t.duet.halves = [] ∧ t.duet.partner = [] ∧ t.duet.pState = s.duet.pState
    ∧ t.duet.wakes = s.duet.wakes ∧ t.duet.relayed = [] ∧ t.duet.held = false ∧ t.duet.goSent = none ∧ t.duet.commit = none ∧ t.duet.change = true ∧ t.duet.ready = false
    ∧ t.duet.partnerReady = false ∧ t.metro.aligned = false ∧ t.metro.hold = false
    ∧ Dropped s t (s.duet.q3.length + s.duet.relayed.length)
    ∧ t.exec = s.exec ∧ t.ram = s.ram ∧ t.port = s.port

/-- From `s` to `t` a frame has been discarded (R284): detector 12 has counted it with a detail, no acknowledgement is due for it, and nothing else has
changed but the match of a seeking module. -/
def Discarded (s t : State) (detail : BitVec 32) : Prop :=
  t = { s with dets := t.dets, duet := t.duet } ∧ (t.det 12).pending = true ∧ (t.det 12).detail = detail
    ∧ (t.det 12).count = min ((s.det 12).count + 1) 65535
    ∧ t.duet = if s.duet.link = .seeking then { s.duet with seen := 0 } else s.duet

/-- Opcode and head of a command of the factory protocol (Table 16-10). -/
def commandIn (i : Instr) : Option (Byte × FlailoHead) :=
  match i with
  | .load h _ _ => some (0x01, h)
  | .verify h => some (0x02, h)
  | .darkCal h _ _ _ => some (0x03, h)
  | .touchCal h _ => some (0x04, h)
  | .calWrite h _ _ => some (0x05, h)
  | .read h => some (0x06, h)
  | .seal h => some (0x07, h)
  | .info h => some (0x08, h)
  | .flailoUnknownOpcode op h => if 1 ≤ op.toNat ∧ op.toNat ≤ 8 then none else some (op, h)
  | _ => none

/-- A Flailo command that the part takes: Flailo mode, no seal, a correct CRC. -/
def Takes (s : State) (op : Byte) (h : FlailoHead) : Prop :=
  s.cond.phase = .flailo ∧ s.nvm.sealed = false ∧ crc16 (commandBytes op h) = h.crc.toNat

end Sys2Proof.Safety
end

