-- ==== Sys2Proof/Certificates/Slice0/Obligations.lean ====
section
/-!
DEFINITION. The statements about the model.
-/
open Sys2Proof Sys2Proof.Machine Sys2Proof.Safety

/-! ### The whole machine -/

/-- A step runs the command at the front of the queue on the state with the queue's rest. -/
def Obligations.StepRunsFront : Prop :=
  ∀ (c : Instr) (q : List Instr) (s : State), step { s with pending := c :: q } = exec c { s with pending := q }

/-- A command changes everything but the queue. -/
def Obligations.ExecLeavesQueue : Prop := ∀ (c : Instr) (s t : State), exec c s = .next t → t.pending = s.pending

/-- Every well-formed command has a next state; an ill-formed one is refused by name. (That a command whose condition does not hold leaves the state
alone is log entry 19.) -/
def Obligations.ExecAnswers : Prop :=
  ∀ (c : Instr) (s : State),
    (c.wf = true → ∃ t, exec c s = .next t) ∧ (c.wf = false → ∃ m, exec c s = .refused (.illFormed m))

/-- The invariant holds before any supply has come up (State.reset's values: log entry 2). -/
def Obligations.ResetMeetsInv : Prop := Inv State.reset

/-- Every step keeps the invariant. -/
def Obligations.StepKeepsInv : Prop := ∀ s t : State, Inv s → step s = .next t → Inv t

/-- The gate's token count and accumulator change on the AON domain's power, an AON edge and a release; a release spends one token. -/
def Sys2Proof.Part.GateChanges : Prop :=
  ∀ (c : Instr) (s t : State), exec c s = .next t →
    (t.aon.tokens = s.aon.tokens ∧ t.aon.acc = s.aon.acc)
      ∨ c = .aonPowerOn ∨ c = .aonLoss ∨ (∃ n, c = .tokenRefill n)
      ∨ (c = .recordRelease ∧ t.aon.tokens + 1 = s.aon.tokens ∧ t.aon.acc = s.aon.acc)

/-- Without a release no entry leaves the state of waiting: what has been released, in the event ring or for the link, had been released
before. -/
def Sys2Proof.Part.NothingReleasedWithoutToken : Prop :=
  ∀ (c : Instr) (s t : State), exec c s = .next t → c ≠ .recordRelease →
    (∀ e ∈ t.port.ring, e.st ≠ .enqueued → ∃ e' ∈ s.port.ring, e'.st ≠ .enqueued ∧ e'.data = e.data ∧ e'.stamp = e.stamp)
      ∧ ∀ m ∈ t.duet.q3, m.released = true → m ∈ s.duet.q3

/-- Tokens change, and records leave the state of waiting, on the commands of the gate only. -/
def Obligations.GateGuards : Prop := Part.GateChanges ∧ Part.NothingReleasedWithoutToken

/-- ROM never changes; a sealed part's OTP, and any part's outside Flailo mode, never changes; a word that carries a programmed mark keeps the
mark and its bytes. -/
def Obligations.OtpProgrammedOnce : Prop :=
  ∀ (c : Instr) (s t : State), exec c s = .next t →
    t.nvm.rom = s.nvm.rom ∧ (s.nvm.sealed = true → t.nvm = s.nvm) ∧ (s.cond.phase ≠ .flailo → t.nvm = s.nvm)
      ∧ ∀ w ∈ s.nvm.marks, w ∈ t.nvm.marks ∧ t.nvm.bytes (8 * w) 8 = s.nvm.bytes (8 * w) 8

/-- No command but a PRIV_N edge moves the series switch of the pixel die. -/
def Sys2Proof.Part.SeriesSwitchByPad : Prop :=
  ∀ (c : Instr) (s t : State), exec c s = .next t → c ≠ .privNFall → c ≠ .privNRise → t.vpix.closed = s.vpix.closed

/-- The straps and the codes TEMPO and SLEW change only at a latch moment, and when the AON domain loses its supply. -/
def Sys2Proof.Part.LatchedOnce : Prop :=
  ∀ (c : Instr) (s t : State), exec c s = .next t → (∀ l v, c ≠ .latchMoment l v) → c ≠ .aonLoss →
    t.boot.straps = s.boot.straps ∧ t.boot.tempo = s.boot.tempo ∧ t.boot.slew = s.boot.slew

/-- What no command but an edge of PRIV_N, and no command but a latch moment, changes. -/
def Obligations.PadsAlone : Prop := Part.SeriesSwitchByPad ∧ Part.LatchedOnce

/-- The module leaves Tacet only when WAKE is high or the wake timer expires, neither in a locked Tacet, or into reset, or when the AON domain
loses its supply. States in Tacet without the AON domain, or with the link up, are not reached; there the domain's power-up leads to reset too, and
a reset begins with the link's step 3. -/
def Obligations.TacetLeft : Prop :=
  ∀ (c : Instr) (s t : State), s.cond.phase = .tacet → exec c s = .next t →
    t.cond.phase = .tacet
      ∨ (t.cond.phase = .tacetExit ∧ s.cond.locked = false ∧ (c = .wakeHighInTacet ∨ (c = .aonWakeTimer ∧ s.aon.wakeTimer.isSome)))
      ∨ (t.cond.phase = .reset ∧ (c = .rstNLow ∨ c = .vioInvalid ∨ c = .vinBelowVrst ∨ c = .vcoreCollapse ∨ (c = .aonPowerOn ∧ s.aon.on = false)))
      ∨ (t.cond.phase = .resetEntry ∧ (c = .rstNLow ∨ c = .vioInvalid) ∧ s.duet.link = .up)
      ∨ (t.cond.phase = .off ∧ c = .aonLoss)

/-! ### Arithmetic, memory and counters that every block uses -/

/-- Rounding is to nearest, ties away from zero: shifts, quotients and exact fractions. -/
def Obligations.RoundsToNearest : Prop :=
  (∀ (v : Int) (n : Nat), 2 * (rshift v n * 2 ^ n - v).natAbs ≤ 2 ^ n
      ∧ (2 * (rshift v n * 2 ^ n - v).natAbs = 2 ^ n → v.natAbs ≤ (rshift v n).natAbs * 2 ^ n))
    ∧ (∀ (v : Int) (d : Nat), 0 < d → 2 * (roundDiv v d * d - v).natAbs ≤ d
      ∧ (2 * (roundDiv v d * d - v).natAbs = d → v.natAbs ≤ (roundDiv v d).natAbs * d))
    ∧ ∀ (v : Int) (n : Nat), rshift v n = if n = 0 then v else
        if v < 0 then -(((v.natAbs + 2 ^ (n - 1)) >>> n : Nat) : Int) else ((v.natAbs + 2 ^ (n - 1)) >>> n : Nat)

/-- Written flags: a store sets the flag of its word, a store of fewer than 8 bytes into a word whose flag is clear makes its other bytes zero,
a byte of a word whose flag is clear reads zero, a scrub clears every flag and takes place at the latch moment, on leaving Tacet, at
fermata entry and after an overrun, and gating a bank clears that bank's flags. -/
def Obligations.WrittenFlags : Prop :=
  (∀ (r : Ram) (w : Nat) (bs : List (Nat × Byte)), (r.bad.contains w = false ∨ 8 ≤ bs.length) → w ∈ (r.store w bs).flags)
    ∧ (∀ (r : Ram) (w : Nat) (bs : List (Nat × Byte)) (p : Nat), r.wf = true → w ∉ r.flags → (∀ x ∈ bs, x.1 / 8 = w) → p / 8 = w →
        (∀ x ∈ bs, x.1 ≠ p) → (r.store w bs).read p = 0)
    ∧ (∀ (r : Ram) (p : Nat), p / 8 ∉ r.flags → r.read p = 0)
    ∧ (∀ s : State, (scrub s).ram.flags = [])
    ∧ (∀ (s : State) (l : Straps) (v : Bool), s.cond.phase = .reset → s.supply.vrst = true → s.supply.vio = true →
        readingDone s.boot = true → ∃ t, exec (.latchMoment l v) s = .next t ∧ t.ram.flags = [])
    ∧ (∀ s : State, s.cond.phase = .tacetExit → ∃ t, exec .coreBaseStepComplete s = .next t ∧ t.ram.flags = [])
    ∧ (∀ s : State, s.fermataNext.isSome → s.running = true → s.metro.due = [] → s.metro.issue = [] →
        ∃ t, exec .fermataEntry s = .next t ∧ t.ram.flags = [])
    ∧ (∀ s : State, s.counting = true → s.exec.abandon = true → s.metro.due = [] → s.metro.slot0 = false →
        ∃ t, exec .abandonAndScrub s = .next t ∧ t.ram.flags = [])
    ∧ ∀ (s : State) (keep w : Nat), w ∈ (gateBanks s keep).ram.flags ↔
        w ∈ s.ram.flags ∧ ¬(8 * w < heldBase ∧ bitAt keep (bankOf (8 * w)) = false)

/-- A word with an uncorrectable error keeps it, and keeps its data, through a store of fewer than 8 bytes; a store of the whole word removes
it and is read back; the scrub removes it. -/
def Sys2Proof.Part.ErrorStaysUntilWritten : Prop :=
  (∀ (r : Ram) (w : Nat) (bs : List (Nat × Byte)), w ∈ r.bad → bs.length < 8 → r.store w bs = r)
    ∧ (∀ (r : Ram) (w : Nat) (vs : List Byte), r.wf = true → vs.length = 8 →
        w ∉ (r.store w (vs.mapIdx fun i b => (8 * w + i, b))).bad
          ∧ ∀ i, i < 8 → (r.store w (vs.mapIdx fun i b => (8 * w + i, b))).read (8 * w + i) = vs.getD i 0)
    ∧ ∀ s : State, (scrub s).ram.bad = []

/-- A data write of the Tutti array or a helper stores nothing at an address that the state in force does not open, and elsewhere the bytes it
names and no others. -/
def Sys2Proof.Part.EngineWritesOpenBytes : Prop :=
  ∀ (s : State) (a : Nat) (bs : List Byte) (p : Nat), s.ram.wf = true → bs ≠ [] →
    (∀ w, w ∈ s.ram.bad → ¬(a / 8 ≤ w ∧ w ≤ (a + bs.length - 1) / 8)) →
    (engWrite s a bs).ram.read p =
      if a ≤ p ∧ p < a + bs.length ∧ ramOpen s (8 * (p / 8)) = true then bs.getD (p - a) 0 else s.ram.read p

/-- What a store leaves of a word with an error, and which bytes an engine's write reaches. -/
def Obligations.MemoryWrites : Prop := Part.ErrorStaysUntilWritten ∧ Part.EngineWritesOpenBytes

/-- The sequence counter starts at 0 with the AON domain, every record takes its value and advances it by one, 255 is followed by 0, and reset,
Tacet and fermata keep it. -/
def Obligations.SequenceCounter : Prop :=
  (∀ s : State, s.aon.on = false → ∃ t, exec .aonPowerOn s = .next t ∧ t.aon.seq = 0)
    ∧ (∀ (s : State) (type flags src : Nat) (payload : List Byte),
        (pushQ2 s type flags src payload).aon.seq.toNat = (s.aon.seq.toNat + 1) % 256
          ∧ ∃ e, (pushQ2 s type flags src payload).port.ring = s.port.ring ++ [e] ∧ e.data[2] = s.aon.seq)
    ∧ (∀ (s t : State) (c : Instr), c = .rstNLow ∨ c = .vioInvalid ∨ c = .vinBelowVrst ∨ c = .vcoreCollapse ∨ c = .fermataEntry
          ∨ c = .tacetEventPortDrain false ∨ c = .tacetEventPortDrain true ∨ c = .tacetEntryEnd ∨ c = .wakeHighInTacet ∨ c = .aonWakeTimer
          ∨ c = .coreBaseStepComplete →
        exec c s = .next t → t.aon.seq = s.aon.seq)

/-- AON edges add exactly the LEAK rate for each edge to tokens and accumulator together while the count stays below its cap, and never more;
accumulator and count keep their bounds. The edges stop at the first one at which a token is present and an entry waits, and only there. -/
def Sys2Proof.Part.GateCountsExactly : Prop :=
  ∀ (n leak : Nat) (waits rel : Bool) (acc tokens acc' tokens' : Nat), leak ≤ 120 → acc < 32960 → tokens ≤ 8 → (tokens = 8 → acc = 0) →
    gateEdges n leak waits (acc, tokens) = ((acc', tokens'), rel) →
      acc' < 32960 ∧ tokens ≤ tokens' ∧ tokens' ≤ 8 ∧ 32960 * tokens' + acc' ≤ 32960 * tokens + acc + n * leak
        ∧ (rel = false → tokens' < 8 → 32960 * tokens' + acc' = 32960 * tokens + acc + n * leak)
        ∧ (rel = true → waits = true ∧ 1 ≤ tokens' ∧ ∃ k, 1 ≤ k ∧ k ≤ n ∧ gateEdges k leak false (acc, tokens) = ((acc', tokens'), false)
            ∧ ∀ j, 1 ≤ j → j < k → (gateEdges j leak false (acc, tokens)).1.2 = 0)
        ∧ (rel = false → waits = true → n = 0 ∨ tokens' = 0)

/-! ### Soli instructions -/

/-- Every Soli instruction's word is read back as that instruction, every operand at every value that the encoding admits; and a word that is
read as anything but the END of an invalid word is the one that the encoder writes. -/
def Obligations.SoliRoundTrip : Prop :=
  (∀ (i : Instr) (c : Ctx) (w : Nat), soliEncode i = some w → (∀ c' g cue ups, i ≠ .cpost c' g cue 0 ups) →
    w < 2 ^ 32 ∧ soliDecode c w = soliPlain c i)
    ∧ ∀ (c : Ctx) (w : Nat), w < 2 ^ 32 → soliDecode c w ≠ invalidWord c → soliEncode (soliDecode c w) = some w

/-- The instructions D = f A B. -/
def Sys2Proof.Part.ThreeRegister : Prop :=
  ∀ p ∈ threeReg, ∀ (s : State) (c : Ctx) (g : Guard) (d a b : Reg) (x : Section), Issues s c x (p.1 c g d a b) →
    ∃ y, exec (p.1 c g d a b) s = .next (s.setSection c y) ∧ WroteReg x y g d fun k => p.2 (x.lanes[k].reg a) (x.lanes[k].reg b)

/-- The instructions that accumulate into D. -/
def Sys2Proof.Part.Accumulators : Prop :=
  ∀ p ∈ accumulators, ∀ (s : State) (c : Ctx) (g : Guard) (d a b : Reg) (x : Section), Issues s c x (p.1 c g d a b) →
    ∃ y, exec (p.1 c g d a b) s = .next (s.setSection c y)
      ∧ WroteReg x y g d fun k => p.2 (x.lanes[k].reg d) (x.lanes[k].reg a) (x.lanes[k].reg b)

/-- The instructions with one source register: absolute value, leading zeros, and the tables of e^x, 1/x and 1/sqrt x, each by the formula of
R204. -/
def Obligations.OneRegister : Prop :=
  ∀ p ∈ oneReg, ∃ f : Word → Word, (∀ v, p.2 v (f v)) ∧
    ∀ (s : State) (c : Ctx) (g : Guard) (d a : Reg) (x : Section), Issues s c x (p.1 c g d a) →
      ∃ y, exec (p.1 c g d a) s = .next (s.setSection c y) ∧ WroteReg x y g d fun k => f (x.lanes[k].reg a)

/-- The instructions with an immediate operand. -/
def Sys2Proof.Part.Immediates : Prop :=
  (∀ p ∈ immediates, ∀ (s : State) (c : Ctx) (g : Guard) (d a : Reg) (imm : BitVec 12) (x : Section), Issues s c x (p.1 c g d a imm) →
    ∃ y, exec (p.1 c g d a imm) s = .next (s.setSection c y) ∧ WroteReg x y g d fun k => p.2 (x.lanes[k].reg a) imm)
    ∧ (∀ p ∈ shifts, ∀ (s : State) (c : Ctx) (g : Guard) (d a : Reg) (n : BitVec 5) (x : Section), Issues s c x (p.1 c g d a n) →
      ∃ y, exec (p.1 c g d a n) s = .next (s.setSection c y) ∧ WroteReg x y g d fun k => p.2 (x.lanes[k].reg a) n)
    ∧ ∀ (s : State) (c : Ctx) (g : Guard) (d : Reg) (imm : BitVec 16) (x : Section), Issues s c x (.lui c g d imm) →
      ∃ y, exec (.lui c g d imm) s = .next (s.setSection c y) ∧ WroteReg x y g d fun _ => BitVec.ofNat 32 (imm.toNat * 65536)

/-- The instructions D = f A B, D = f D A B and D = f A IMM. -/
def Obligations.Arithmetic : Prop := Part.ThreeRegister ∧ Part.Accumulators ∧ Part.Immediates

/-- SEL, SHFL, RSC and SREG. -/
def Obligations.SelectShuffleRescale : Prop :=
  (∀ (s : State) (c : Ctx) (g : Guard) (d a b : Reg) (p : BitVec 3) (x : Section), Issues s c x (.sel c g d a b p) →
    ∃ y, exec (.sel c g d a b p) s = .next (s.setSection c y)
      ∧ WroteReg x y g d fun k => if x.lanes[k].pred p then x.lanes[k].reg a else x.lanes[k].reg b)
    ∧ (∀ (s : State) (c : Ctx) (g : Guard) (d a b : Reg) (x : Section), Issues s c x (.shfl c g d a b) →
      ∃ y, exec (.shfl c g d a b) s = .next (s.setSection c y)
        ∧ WroteReg x y g d fun k => (x.lanes[Fin.ofNat 16 (x.lanes[k].reg b).toNat]).reg a)
    ∧ (∀ (s : State) (c : Ctx) (g : Guard) (d a b : Reg) (x : Section), Issues s c x (.rsc c g d a b) →
      ∃ y, exec (.rsc c g d a b) s = .next (s.setSection c y)
        ∧ WroteReg x y g d fun k =>
            let e := min (field s.exec.ctx.toNat 4 4) (recRlim s x)
            let v := x.lanes[k].reg b
            BitVec.ofInt 32 (rshift (clearLow (x.lanes[k].reg a).toInt (e - 7)) (v.toNat % 32) + (v.extractLsb' 16 16).toInt))
    ∧ ∀ (s : State) (c : Ctx) (g : Guard) (d : Reg) (imm : BitVec 12) (x : Section), Issues s c x (.sreg c g d imm) →
      ∃ y, exec (.sreg c g d imm) s = .next (s.setSection c y)
        ∧ WroteReg x y g d fun k =>
            let r := recOff s (sectionRec s x)
            BitVec.ofNat 32 (match imm.toNat with
              | 0 => k.val
              | 1 => x.sec
              | 2 => recSections s (sectionRec s x)
              | 3 => bodyU s (r + 24) 4
              | 4 => bodyU s (r + 28) 4
              | 5 => recRlim s x
              | _ => 0)

/-- The instructions that write a predicate. -/
def Obligations.Predicates : Prop :=
  (∀ (s : State) (c : Ctx) (g : Guard) (pd : BitVec 3) (k : Cond) (a b : Reg) (x : Section), Issues s c x (.cmp c g pd k a b) →
    ∃ y, exec (.cmp c g pd k a b) s = .next (s.setSection c y)
      ∧ WrotePred x y g pd fun j => compares k (x.lanes[j].reg a) (x.lanes[j].reg b))
    ∧ (∀ (s : State) (c : Ctx) (g : Guard) (pd : BitVec 3) (k : Cond) (a : Reg) (imm : BitVec 11) (x : Section),
      Issues s c x (.cmpi c g pd k a imm) →
      ∃ y, exec (.cmpi c g pd k a imm) s = .next (s.setSection c y)
        ∧ WrotePred x y g pd fun j => compares k (x.lanes[j].reg a) (imm.signExtend 32))
    ∧ (∀ (s : State) (c : Ctx) (g : Guard) (pd : BitVec 3) (op : Lop) (pa pb : BitVec 3) (x : Section), Issues s c x (.plog c g pd op pa pb) →
      ∃ y, exec (.plog c g pd op pa pb) s = .next (s.setSection c y)
        ∧ WrotePred x y g pd fun j =>
            let p := x.lanes[j].pred pa
            let q := x.lanes[j].pred pb
            match op with
            | .and => p && q
            | .or => p || q
            | .xor => p ^^ q
            | .andNot => p && !q)
    ∧ ∀ (s : State) (c : Ctx) (g : Guard) (pd : BitVec 3) (all : Bool) (pa : BitVec 3) (x : Section), Issues s c x (.vote c g pd all pa) →
      ∃ y v, exec (.vote c g pd all pa) s = .next (s.setSection c y) ∧ (WrotePred x y g pd fun _ => v)
        ∧ (all = true → (v = true ↔ ∀ j : Fin 16, x.active.getLsbD j.val = true → x.lanes[j].pred pa = true))
        ∧ (all = false → (v = true ↔ ∃ j : Fin 16, x.active.getLsbD j.val = true ∧ x.lanes[j].pred pa = true))

/-- BRA: no lane takes it, every active lane takes it, or the section diverges: the lanes that take it run first, and the others wait on the
stack at the next word; a full stack ends the section. -/
def Sys2Proof.Part.Branch : Prop :=
  ∀ (s : State) (c : Ctx) (g : Guard) (off : BitVec 22) (x : Section), Issues s c x (.bra c g off) →
    ∃ y t, exec (.bra c g off) s = .next (s.setSection c y) ∧ (∀ k : Fin 16, t.getLsbD k.val = x.acts g k) ∧
      if t = x.active then y = { x with pc := x.pc + off.toInt }
      else if t = 0 then y = { x with pc := x.pc + 1 }
      else if x.stack.length < 8 then
        y = { x with active := t, pc := x.pc + off.toInt, stack := (x.active &&& ~~~t, x.pc + 1) :: x.stack }
      else y = { x with ended := true, active := 0, live := 0, stack := [] }

/-- RPUSH, RSYNC, PARK and END on the reconvergence stack. -/
def Sys2Proof.Part.Reconvergence : Prop :=
  (∀ (s : State) (c : Ctx) (off : BitVec 22) (x : Section), Issues s c x (.rpush c off) →
    exec (.rpush c off) s = .next (s.setSection c
      (if x.stack.length < 8 then { x with pc := x.pc + 1, stack := (x.active, x.pc + off.toInt) :: x.stack }
       else { x with ended := true, active := 0, live := 0, stack := [] })))
    ∧ (∀ (s : State) (c : Ctx) (x : Section), Issues s c x (.rsync c) →
      ∃ y, exec (.rsync c) s = .next (s.setSection c y) ∧ Popped x y)
    ∧ (∀ (s : State) (c : Ctx) (g : Guard) (x : Section), Issues s c x (.park c g) →
      ∃ y m, exec (.park c g) s = .next (s.setSection c y) ∧ (∀ k : Fin 16, m.getLsbD k.val = (x.active.getLsbD k.val && !x.acts g k))
        ∧ if m = 0 then Popped { x with active := 0 } y else y = { x with active := m, pc := x.pc + 1 })
    ∧ ∀ (s : State) (c : Ctx) (g : Guard) (x : Section), Issues s c x (.endThreads c g []) →
      ∃ y t, exec (.endThreads c g []) s = .next (s.setSection c y) ∧ (∀ k : Fin 16, t.getLsbD k.val = x.acts g k)
        ∧ let z := { x with live := x.live &&& ~~~t, active := x.active &&& ~~~t }
          if z.active = 0 then Popped z y else y = { z with pc := x.pc + 1 }

/-- A fetch outside the kernel's code range, or refused beyond the score body, is END on the active lanes. -/
def Sys2Proof.Part.RefusedFetch : Prop :=
  ∀ (s : State) (c : Ctx) (x : Section), (∀ o, codeWordOff s x x.pc = some o → bodyLen s ≤ o) → nextInstr s c x = .endThreads c Guard.always []

/-- A fetch that finds an uncorrectable error of the ROM or the OTP acts as END on the active lanes, trips detector 8 and stops the bar's
entries. -/
def Sys2Proof.Part.BrokenFetch : Prop :=
  ∀ (s : State) (c : Ctx) (x : Section) (o addr : Nat), s.section c = some x → x.ended = false → codeWordOff s x x.pc = some o →
    bodyWord s o = addr / 8 →
    ∃ t y, exec (.endThreads c Guard.always [⟨addr, true⟩]) s = .next t ∧ t.section c = some y ∧ y.active = y.active &&& y.live
      ∧ (∀ k : Fin 16, x.active.getLsbD k.val = true → y.live.getLsbD k.val = false)
      ∧ (t.det 8).pending = true ∧ (t.det 8).detail = BitVec.ofNat 32 (addr / 8 * 8) ∧ t.exec.stopped = true ∧ t.exec.abandon = true
      ∧ t.exec.q0 = [] ∧ t.exec.q1 = [] ∧ t.metro.issue = [] ∧ t.cond.force = true

/-- BRA, RPUSH, RSYNC, PARK and END as R199 lays them down, on a word and on a refused fetch; on one that finds an uncorrectable error as R333,
R154 and R197 say. -/
def Obligations.ControlFlow : Prop := Part.Branch ∧ Part.Reconvergence ∧ Part.RefusedFetch ∧ Part.BrokenFetch

/-- WAITLC, CWAIT and CPOST: a wait that is met lets the section go on, one that is not met holds it; CPOST adds its increment, saturating. -/
def Obligations.WaitsAndPosts : Prop :=
  (∀ (s : State) (c : Ctx) (g : Guard) (count : BitVec 6) (lc : BitVec 2) (x : Section), Issues s c x (.waitlc c g count lc) →
    (x.lcs[lc.toNat]'lc.isLt ≤ count.toNat → exec (.waitlc c g count lc) s = .next (s.setSection c { x with pc := x.pc + 1 }))
      ∧ (count.toNat < x.lcs[lc.toNat]'lc.isLt → (∃ k, x.acts g k = true) → exec (.waitlc c g count lc) s = .next s))
    ∧ (∀ (s : State) (c : Ctx) (g : Guard) (cue : BitVec 7) (a : Reg) (x : Section) (k : Fin 16), Issues s c x (.cwait c g cue a) →
      x.acts g k = true → (∀ j : Fin 16, j < k → x.acts g j = false) →
      exec (.cwait c g cue a) s = .next
        (if (x.lanes[k].reg a).toNat ≤ (s.exec.cues[cue.toNat]'cue.isLt).toNat then s.setSection c { x with pc := x.pc + 1 } else s))
    ∧ ∀ (s : State) (c : Ctx) (g : Guard) (cue : BitVec 7) (inc : BitVec 9) (ups : List Upset) (x : Section),
      Issues s c x (.cpost c g cue inc []) → (∃ k, x.acts g k = true) → s.exec.abandon = false →
      ∃ t, exec (.cpost c g cue inc ups) s = .next t ∧ t.section c = some { x with pc := x.pc + 1 }
        ∧ ∀ j : Fin 128, (t.exec.cues[j]).toNat =
            if j.val = cue.toNat then min ((s.exec.cues[j]).toNat + inc.toNat) 65535 else (s.exec.cues[j]).toNat

/-- Loads: the counter goes up, the load waits with the acting lanes' values, and no lane, no register and no byte of memory changes but for
words in which the reads find an uncorrectable error; a load whose counter holds 63 does not issue. That the values are those of the issue, and that a load in which no lane acts counts as
well, is the model's reading (log entry 25). -/
def Obligations.Loads : Prop :=
  ∀ p ∈ loads, ∀ (s : State) (c : Ctx) (g : Guard) (d a : Reg) (off : BitVec 10) (lc : BitVec 2) (ups : List Upset) (x : Section),
    Issues s c x (p.1 c g d a off lc []) →
    (x.lcs[lc.toNat]'lc.isLt = 63 → exec (p.1 c g d a off lc ups) s = .next s) ∧ (x.lcs[lc.toNat]'lc.isLt < 63 →
    ∃ t y q, exec (p.1 c g d a off lc ups) s = .next t ∧ t.section c = some y
      ∧ y = { x with pc := x.pc + 1, loads := x.loads ++ [q], lcs := x.lcs.set lc.toNat (x.lcs[lc.toNat]'lc.isLt + 1) lc.isLt }
      ∧ q.dest = d ∧ q.lc = lc ∧ (∀ k : Fin 16, q.left.getLsbD k.val = x.acts g k)
      ∧ (∀ k : Fin 16, x.acts g k = true →
          let addr := laneAddr x k a p.2.1 off
          let byteAt (b : Nat) : Byte := if ramOpen s b && spoilt s x g a p.2.1 off ups b then 0 else soliRead s b
          let v := if addr % p.2.1 = 0 then leNat ((List.range p.2.1).map fun i => byteAt (addr + i)) else 0
          q.values[k] = if p.2.2 then (BitVec.ofInt 32 (signed (8 * p.2.1) v)) else BitVec.ofNat 32 v)
      ∧ (∀ b, t.ram.read b = if spoilt s x g a p.2.1 off ups b then 0 else s.ram.read b)
      ∧ ∀ c' : Ctx, c' ≠ c → t.section c' = s.section c')

/-- LDC reads the code range, 0 outside it (the index does not wrap, log entry 24) and where the read finds an uncorrectable error, and counts like a
load, so that it does not issue while its counter holds 63; loads that read data cannot reach the score window. -/
def Sys2Proof.Part.ConstantLoads : Prop :=
  (∀ (s : State) (c : Ctx) (g : Guard) (d a : Reg) (off : BitVec 10) (lc : BitVec 2) (ups : List Upset) (x : Section),
    Issues s c x (.ldc c g d a off lc []) → x.lcs[lc.toNat]'lc.isLt < 63 →
    ∃ t q, exec (.ldc c g d a off lc ups) s = .next t ∧ (ups = [] → t = s.setSection c
        { x with pc := x.pc + 1, loads := x.loads ++ [q], lcs := x.lcs.set lc.toNat (x.lcs[lc.toNat]'lc.isLt + 1) lc.isLt })
      ∧ t.section c = some
        { x with pc := x.pc + 1, loads := x.loads ++ [q], lcs := x.lcs.set lc.toNat (x.lcs[lc.toNat]'lc.isLt + 1) lc.isLt }
      ∧ t.ram = s.ram ∧ q.dest = d ∧ q.lc = lc ∧ (∀ k : Fin 16, q.left.getLsbD k.val = x.acts g k)
      ∧ ∀ k : Fin 16, x.acts g k = true →
          let j : Int := (x.lanes[k].reg a).toNat + off.toInt
          let o := codeOff s x + 4 * j.toNat
          q.values[k] = if 0 ≤ j ∧ j < codeLen s x ∧ ∀ u ∈ ups, u.multi = true → u.addr / 8 ≠ bodyWord s o
            then BitVec.ofNat 32 (bodyU s o 4) else 0)
    ∧ (∀ (s : State) (c : Ctx) (g : Guard) (d a : Reg) (off : BitVec 10) (lc : BitVec 2) (ups : List Upset) (x : Section),
      Issues s c x (.ldc c g d a off lc []) → x.lcs[lc.toNat]'lc.isLt = 63 → exec (.ldc c g d a off lc ups) s = .next s)
    ∧ ∀ (s : State) (p : Nat), p < sramBase → soliRead s p = 0

/-- LOAD_RETURN: the named lanes of an outstanding load take their values; with the last of them the load is gone and its counter is one
lower. -/
def Sys2Proof.Part.LoadReturns : Prop :=
  ∀ (s : State) (c : Ctx) (k : Nat) (lanes : BitVec 16) (x : Section) (p : PendingLoad), s.section c = some x → x.loads[k]? = some p →
    ∃ y, exec (.loadReturn c k lanes) s = .next (s.setSection c y)
      ∧ (∀ (j : Fin 16) (r : Reg), y.lanes[j].reg r =
          if lanes.getLsbD j.val && p.left.getLsbD j.val && decide (r = p.dest) && decide (r ≠ 0) then p.values[j] else x.lanes[j].reg r)
      ∧ (∀ j : Fin 16, y.lanes[j].preds = x.lanes[j].preds)
      ∧ if p.left &&& ~~~lanes = 0 then
          y = { x with lanes := y.lanes, loads := x.loads.eraseIdx k, lcs := x.lcs.set p.lc.toNat (x.lcs[p.lc.toNat]'p.lc.isLt - 1) p.lc.isLt }
        else y = { x with lanes := y.lanes, loads := x.loads.set k { p with left := p.left &&& ~~~lanes } }

/-- LDC and LOAD_RETURN. -/
def Obligations.ConstantsAndReturns : Prop := Part.ConstantLoads ∧ Part.LoadReturns

/-- Stores: each byte of memory reads as the highest acting lane has stored it, or as before; a word with an uncorrectable error reads zero; a refused
or misaligned store is discarded. (That a store is visible at once, before any ordering of R150, is log entry 25.) -/
def Obligations.Stores : Prop :=
  ∀ p ∈ stores, ∀ (s : State) (c : Ctx) (g : Guard) (d a : Reg) (off : BitVec 10) (ups : List Upset) (x : Section), s.ram.wf = true →
    Issues s c x (p.1 c g d a off []) →
    ∃ t, exec (p.1 c g d a off ups) s = .next t ∧ t.section c = some { x with pc := x.pc + 1 }
      ∧ (∀ c' : Ctx, c' ≠ c → t.section c' = s.section c')
      ∧ (∀ b, (∀ k : Fin 16, storesAt s x g a p.2 off k b = false) →
          t.ram.read b = if spoilt s x g a p.2 off ups b then 0 else s.ram.read b)
      ∧ ∀ (b : Nat) (k : Fin 16), storesAt s x g a p.2 off k b = true → (∀ j : Fin 16, k < j → storesAt s x g a p.2 off j b = false) →
          t.ram.read b = if spoilt s x g a p.2 off ups b then 0
            else (x.lanes[k].reg d).extractLsb' (8 * (b - laneAddr x k a p.2 off)) 8

/-! ### Power, reset and the latch moment -/

/-- The AON domain powers on with no tokens, counters at 0 and no flag, and its reset begins; when it loses its supply everything it holds is
lost but OTP, VIO's supply, the pixel die's switch and charge stay. (That VIN then counts as below VWARN's release level is log entry 75; what the loss
leaves, log entries 44 and 62.) -/
def Obligations.AonPower : Prop :=
  (∀ s : State, s.aon.on = false →
    ∃ t, exec .aonPowerOn s = .next t ∧ t = { s with aon := t.aon, supply := { s.supply with low := true }, cond := { s.cond with phase := .reset } } ∧ t.aon.on = true
      ∧ t.aon.tokens = 0 ∧ t.aon.acc = 0 ∧ t.aon.leak = none ∧ t.aon.seq = 0 ∧ t.aon.unclean = none ∧ t.aon.trim = 0
      ∧ t.aon.lock = none ∧ t.aon.warnCap = false ∧ t.aon.wakeTimer = none)
    ∧ ∀ s : State, s.aon.on = true →
      ∃ t, exec .aonLoss s = .next t ∧ t.aon.on = false ∧ t.cond.phase = .off ∧ t.aon.tokens = 0 ∧ t.aon.unclean = none
        ∧ t.nvm = s.nvm ∧ t.supply.vio = s.supply.vio ∧ t.vpix.closed = s.vpix.closed ∧ t.vpix.above = s.vpix.above
        ∧ (∀ p, (t.plane p).stored = (s.plane p).stored) ∧ t.ram = Ram.empty ∧ t.port.ring = []

/-- From `s` to `t` the header digest of a SEL value has been read: words in error read zero, their start will end in Tacet, and detector 8's
record is enqueued; without an error nothing but supplies and reading has changed. -/
def Sys2Proof.Part.DigestRead (s t : State) (sel : BitVec 3) (ups : List Upset) : Prop :=
  t.boot.selSampled = sel ∧ t.nvm = s.nvm
    ∧ (∀ i : Fin 32, t.boot.digest[i] = ({ s.nvm with failing := romFailures ups } : Nvm).read (imageBase sel.toNat + 16 + i.val))
    ∧ t.boot.broken = (s.boot.broken || decide (romFailures ups ≠ []))
    ∧ (romFailures ups = [] → t = { s with supply := t.supply, boot := t.boot })
    ∧ (romFailures ups ≠ [] → s.relays = false → ∃ e, t.port.ring.getLast? = some e ∧ e.st = .enqueued ∧ e.data[1] = 0x18 ∧ e.data[8] = 8)

/-- Power-up step 2 and the reading of the six RZ pads during reset: two equal codes of a pair agree, a pad that has agreed is measured no
more, the eighth pair that disagrees gives the default; a changed SEL has its digest read anew. (That an error in the digest leads to Tacet at
the latch moment is the model's reading, log entry 74; when the pads' isolation ends, log entry 65.) -/
def Obligations.ResetReading : Prop :=
  (∀ (s : State) (sel : BitVec 3) (ups : List Upset), s.cond.phase = .reset → s.boot.started = false →
    ∃ t, exec (.supervisionStart ⟨sel, ups⟩) s = .next t ∧ t.supply.core = true ∧ t.supply.armed = true ∧ t.supply.vrst = true
      ∧ t.supply.isolated = (s.supply.isolated && !s.supply.vio) ∧ t.boot.started = true ∧ t.boot.pairs = 0
      ∧ (∀ i : Fin 6, t.boot.pads[i] = ⟨none, false⟩) ∧ Part.DigestRead s t sel ups)
    ∧ (∀ (s : State) (a b : Vector Measure 6), s.cond.phase = .reset → s.boot.started = true → readingDone s.boot = false →
      ∃ t, exec (.resetPairReading a b) s = .next t ∧ t = { s with boot := { s.boot with pairs := s.boot.pairs + 1, pads := t.boot.pads } }
        ∧ ∀ i : Fin 6, t.boot.pads[i] =
            if s.boot.pads[i].code.isSome then s.boot.pads[i]
            else if measureCode a[i] = measureCode b[i] then ⟨some (measureCode a[i]), false⟩
            else if s.boot.pairs = 7 then ⟨some (if i.val = 3 then 15 else 0), true⟩
            else s.boot.pads[i])
    ∧ ∀ (s : State) (sel : BitVec 3) (ups : List Upset), s.cond.phase = .reset → s.boot.started = true → sel ≠ s.boot.selSampled →
      ∃ t, exec (.selChangeDigestRead ⟨sel, ups⟩) s = .next t ∧ t.supply = s.supply ∧ t.boot.pads = s.boot.pads ∧ t.boot.pairs = s.boot.pairs
        ∧ Part.DigestRead s t sel ups

/-- VIO becomes valid: in reset the pads take their reset states (log entry 65). -/
def Sys2Proof.Part.VioValid : Prop :=
  ∀ s : State, ∃ t, exec .vioValid s = .next t ∧ t = { s with supply := { s.supply with vio := true, isolated := t.supply.isolated } }
    ∧ (t.supply.isolated = true ↔ s.supply.isolated = true ∧ s.cond.phase ≠ .reset)

/-- RST_N low and, outside Tacet entry, VIO invalid. A module whose link is not up is in reset at once; with the link up the blocks are torn down at once,
and step 3 waits for the token of the NOTICE, 2 beats at most (R90, R303). What reset keeps is kept, and what waits in a ring counts as dropped
as soon as the ring is left. -/
def Sys2Proof.Part.ResetByPad : Prop :=
  (∀ s : State, s.outOfReset = true → ∀ c entry, (c = .rstNLow ∧ entry = 1) ∨ (c = .vioInvalid ∧ entry = 3 ∧ ∀ k, s.cond.phase ≠ .tacetEntry k) →
    ∃ t, exec c s = .next t ∧ keptByReset s t ∧ t.aon.unclean = s.aon.unclean ∧ t.supply.isolated = s.supply.isolated
      ∧ (c = .rstNLow → t.supply.rstLow = true) ∧ (c = .vioInvalid → t.supply.vio = false)
      ∧ (s.duet.link ≠ .up ∨ s.metro.on = false → inReset t entry s.duet.tx ∧ Dropped s t (waiting s))
      ∧ (s.duet.link = .up → s.metro.on = true → inResetEntry s t entry
          ∧ (s.duet.q3.length < 16 ∨ (∃ m ∈ s.duet.q3, m.type = 9) → Dropped s t s.port.ring.length)))
    ∧ ∀ (s : State) (w : Vector Code 640) (h : Vector Code 320) (x : BoundaryRead), slotDone s = true → (s.metro.slot0 = true ∨ s.metro.slot < 447) →
      s.cond.phase = .resetEntry →
      ∃ t, exec (.slotBoundary w h x) s = .next t ∧ keptByReset s t
        ∧ (s.cond.wait < 31 → t.cond.phase = .resetEntry ∧ t.cond.wait = s.cond.wait + 1 ∧ t.duet.link = s.duet.link ∧ t.duet.q3 = s.duet.q3)
        ∧ (31 ≤ s.cond.wait → inReset t s.boot.entry s.duet.tx ∧ Dropped s t (waiting s))

/-- Rail-failure isolation: VIO invalid in Tacet entry, VIN below VRST and a collapse of VCORE. The pads are isolated, the unclean-stop flag takes step
and detail, and reset follows without a wait (R89). -/
def Sys2Proof.Part.ResetByRail : Prop :=
  (∀ (s : State) (k : Nat), s.cond.phase = .tacetEntry k →
    ∃ t, exec .vioInvalid s = .next t ∧ inReset t 4 s.duet.tx ∧ keptByReset s t ∧ t.supply.vio = false ∧ t.supply.isolated = true
      ∧ t.aon.unclean.any (fun u => u.step = k && u.detail = 3) ∧ Dropped s t (waiting s))
    ∧ (∀ s : State, s.aon.on = true → s.supply.vrst = true →
      ∃ t, exec .vinBelowVrst s = .next t
        ∧ inReset t (if stepCode s ≠ 0 then 4 else if s.cond.phase = .reset ∨ s.cond.phase = .resetEntry then s.boot.entry else 2) s.duet.tx
        ∧ keptByReset s t ∧ t.supply.isolated = true ∧ t.supply.core = false ∧ t.supply.vrst = false
        ∧ t.aon.unclean.any (fun u => u.step = stepCode s && u.detail = 1) ∧ Dropped s t (waiting s))
    ∧ ∀ s : State, s.aon.on = true → s.supply.armed = true →
      ∃ t, exec .vcoreCollapse s = .next t ∧ inReset t 4 s.duet.tx ∧ keptByReset s t ∧ t.supply.isolated = true ∧ t.supply.core = false
        ∧ t.aon.unclean.any (fun u => u.step = stepCode s && u.detail = 2) ∧ Dropped s t (waiting s)

/-- Reset entry by the pads and by the rails. (Tacet entry as a phase of its own, in which RST_N gives ENTRY 1 and VIO ENTRY 4, is log entry 49; the
partner's waiting records among the drops, log entry 36; part of what is kept, log entry 44; the end of isolation at VIO_VALID in reset, log
entry 65; step 3 of a reset as a phase of its own, log entry 70; the ENTRY kept when VIN falls during reset or its step 3, log entry 78.) -/
def Obligations.ResetEntry : Prop := Part.VioValid ∧ Part.ResetByPad ∧ Part.ResetByRail

/-- The latch moment: straps and codes are latched, the warning window, the thermal state and the detectors start anew, memory is scrubbed,
link and port are enabled, and verification or, on an unsealed part with TEST, SEL 7 and VPP, Flailo mode begins. A start whose digest could
not be read goes to a locked Tacet, its record still in the ring (the model's reading, log entry 74). -/
def Obligations.LatchMoment : Prop :=
  ∀ (s : State) (l : Straps) (vpp : Bool), s.cond.phase = .reset → s.supply.vrst = true → s.supply.vio = true → readingDone s.boot = true →
    ∃ t, exec (.latchMoment l vpp) s = .next t ∧ t.boot.straps = l ∧ t.supply.isolated = false
      ∧ (∀ i : Fin 6, ∃ v, s.boot.pads[i].code = some v ∧
          (match i.val with
            | 0 => t.boot.tempo = v
            | 1 => t.codes.rubato.eff = v
            | 2 => t.codes.leak.eff = v ∧ t.aon.leak = some v
            | 3 => t.codes.sense.eff = v
            | 4 => t.boot.slew = v
            | _ => t.codes.inject.eff = v))
      ∧ t.aon.warnings = [] ∧ t.aon.warnCap = false ∧ t.ram = Ram.empty ∧ t.port.on = true ∧ t.port.ring = s.port.ring
      ∧ (∀ d : Fin 20, t.dets[d] = Detector.none)
      ∧ t.duet.link = (if l.duet then .seeking else .off)
      ∧ (let flailo := s.nvm.sealed = false ∧ l.test = true ∧ l.sel = 7 ∧ vpp = true
         (flailo → t.cond.phase = .flailo ∧ t.cond.locked = false)
           ∧ (¬flailo → s.boot.broken = true → t.cond.phase = .tacetEntry 4 ∧ t.cond.locked = true)
           ∧ (¬flailo → s.boot.broken = false → t.cond.phase = .verifying false ∧ t.cond.locked = false))
      ∧ t.cond.entry = s.boot.entry ∧ t.nvm = s.nvm ∧ t.aon.tokens = s.aon.tokens ∧ t.aon.acc = s.aon.acc ∧ t.aon.seq = s.aon.seq

/-- Verification: an image without fault enters its initial state, limited by the caps, and the first bar begins, bar 0 after a reset and the
next number after Tacet; with VIN not yet above VWARN's release level it begins in fermata (R342, log entry 75). -/
def Sys2Proof.Part.VerificationSucceeds : Prop :=
  ∀ (s : State) (exit wake : Bool) (ups : List Upset), s.cond.phase = .verifying exit → (∀ u ∈ ups, u.multi = false) →
    imageFault s exit = none →
    ∃ t, exec (.digestVerification wake ups) s = .next t ∧ t.cond.phase = .running ∧ t.metro.on = true ∧ t.metro.slot = 0
      ∧ t.metro.slot0 = true ∧ t.aon.bar = (if exit then s.aon.bar + 1 else 0) ∧ t.cond.state.num ≤ maxState s
      ∧ ((s.thermal.throttle = true ∨ s.aon.warnCap = true) → t.cond.state.num ≤ 2)
      ∧ t.cond.state = effective s wake (PState.ofNum (initState s)) ∧ t.fermataNext = (if s.supply.low then some true else none)
      ∧ (∀ c : Fin 128, t.exec.cues[c] = 0) ∧ t.nvm = s.nvm

/-- An image with a fault, or a read that finds an uncorrectable error, leads to a Tacet that only a reset ends, with a fault record. (That its
entry begins with step 4 is log entry 49.) -/
def Sys2Proof.Part.VerificationFails : Prop :=
  ∀ (s : State) (exit wake : Bool) (ups : List Upset), s.cond.phase = .verifying exit →
    ((∃ u ∈ ups, u.multi = true) ∨ (imageFault s exit).isSome = true) →
    ∃ t, exec (.digestVerification wake ups) s = .next t ∧ t.cond.phase = .tacetEntry 4 ∧ t.cond.locked = true
      ∧ (s.relays = false → ∃ e, t.port.ring.getLast? = some e ∧ e.st = .enqueued ∧ e.data[1] = 0x18)

/-- How power-up verification ends. -/
def Obligations.Verification : Prop := Part.VerificationSucceeds ∧ Part.VerificationFails

/-- The interlock and the planes: a met interlock enables the VPIX LDO, a plane's power-up ends with the mean of its black rows as its black level
and with the start of an exposure that should have started, VPIX below 0.2 V releases the sink and empties nodes and photodiodes and ends Tacet
entry's step 6, a restart begins the interlock again but for an injection that is held. (When VPIX counts as up is log entry 68; the powered
cycle, log entry 84; whose exposure word counts before one is laid down, log entry 88; restarts and holds, log entry 67.) -/
def Sys2Proof.Part.PlanesPowerUp : Prop :=
  (∀ s : State, s.vpix.sink = true → planesStarting s = true → s.inject 10 = false → s.inject 11 = false → s.priv.held = false →
    exec .ledInterlockMet s = .next { s with vpix := { s.vpix with ldo := true, above := s.vpix.above || s.vpix.closed } })
    ∧ (∀ (s : State) (p : Plane) (cycle : Nat) (black : List Code), (Instr.imagerStepDone p ⟨cycle, black⟩).wf = true →
      (s.plane p).power = .starting → s.vpix.ldo = true → s.vpix.closed = true →
      ∃ t, exec (.imagerStepDone p ⟨cycle, black⟩) s = .next t ∧ (t.plane p).power = .on ∧ t.vpix = s.vpix
        ∧ 2 * (((t.plane p).black * black.length : Nat) - (16 * (black.map (·.toNat)).sum : Nat) : Int).natAbs ≤ black.length
        ∧ (t.plane p).stave = (s.plane p).stave ∧ t.limiter.busy = (if s.limiter.busy = some p then none else s.limiter.busy)
        ∧ (s.metro.slot * s.metro.len / 448 ≤ cycle → (cycle < (s.metro.slot + 1) * s.metro.len / 448 ∨ s.metro.hold = true) →
            (t.plane p).expStart = if (3584 - (exposureFor s p (nextState s)).exp) * s.metro.len / 3584 ≤ cycle then some cycle else none))
    ∧ (∀ s : State, s.vpix.above = true → (s.vpix.ldo = false ∨ s.vpix.closed = false) →
      ∃ t, exec .vpixDischarged s = .next t ∧ t.vpix = { s.vpix with above := false, sink := false }
        ∧ (∀ p, t.plane p = { s.plane p with stored := false, expStart := none })
        ∧ (s.cond.phase = .tacetEntry 6 → t.cond.phase = .tacetEntry 5 ∧ t.limiter.on = true ∧ t.limiter.iNew = 0 ∧ t.exec.q0 = []
            ∧ t.exec.q1 = [] ∧ t.exec.tutti = [] ∧ t.exec.soli = [])
        ∧ (s.cond.phase ≠ .tacetEntry 6 → t = { s with vpix := t.vpix, planeW := t.planeW, planeH := t.planeH }))
    ∧ (∀ s : State, Due.planeRestart ∈ s.metro.due → s.inject 10 = false → s.inject 11 = false →
      ∃ t, exec .planeRestart s = .next t ∧ t.vpix.sink = true ∧ Due.planeRestart ∉ t.metro.due ∧
        ∀ p, (t.plane p).power =
          if stPlane s s.st p && decide ((s.plane p).power = .off) && !s.limiter.holdsPlane p then .starting else (s.plane p).power)
    ∧ ∀ s : State, Due.planeRestart ∈ s.metro.due → s.inject 10 = true ∨ s.inject 11 = true →
      ∃ t, exec .planeRestart s = .next t ∧ Due.planeRestart ∉ t.metro.due ∧ t.vpix = s.vpix ∧ t.planeW = s.planeW ∧ t.planeH = s.planeH
        ∧ (s.inject 10 = true → t.priv.byLed = true ∧ (s.priv.byLed = false → (t.det 10).pending = true ∧ (t.det 10).injected = true))
        ∧ (s.inject 11 = true → t.priv.byPath = true ∧ (s.priv.byPath = false → (t.det 11).pending = true ∧ (t.det 11).injected = true))

/-- The LED interlock opens: detector 10 trips, the VPIX LDO goes off with both planes' supply, readout stops at the next slot boundary, and
the sink stays on while VPIX is above 0.2 V. The series switch follows the PRIV_N pad alone. -/
def Sys2Proof.Part.LedAndPrivacySwitch : Prop :=
  (∀ (s : State) (cur fwd : Bool), s.vpix.ldo = true → s.vpix.above = true → (cur || fwd) = true →
    ∃ t, exec (.ledInterlockOpen cur fwd) s = .next t ∧ t.vpix.ldo = false ∧ t.vpix.sink = true ∧ t.priv.stop = true ∧ t.priv.byLed = true
      ∧ t.planeW.power = .off ∧ t.planeH.power = .off ∧ (t.det 10).pending = true
      ∧ (t.det 10).detail = BitVec.ofNat 32 ((if cur then 1 else 0) + (if fwd then 2 else 0)) ∧ t.vpix.closed = s.vpix.closed
      ∧ t.ram = s.ram ∧ t.exec = s.exec)
    ∧ (∀ s : State, exec .privNFall s = .next { s with vpix := { s.vpix with closed := false } })
    ∧ ∀ s : State, exec .privNRise s = .next { s with vpix :=
        { s.vpix with closed := true, above := s.vpix.above || s.vpix.ldo, sink := s.vpix.sink || s.vpix.ldo } }

/-- The planes' supply: interlock, power-up, VPIX, restart, and the privacy switch. -/
def Obligations.PlanesAndSwitch : Prop := Part.PlanesPowerUp ∧ Part.LedAndPrivacySwitch

/-- What each action of a ramp does (R94, Tables 04-2 and 04-7): VCORE's target, one bank and on the way down its contents, the held store, one of
eight equal steps of a clock, rounded to nearest (R174), one Soli cluster, and a plane, which comes up unless something holds it off. -/
def Sys2Proof.Part.ActionEffects : Prop :=
  ∀ s : State,
    let l := s.limiter
    (doAction s .vcore = { s with supply := { s.supply with vcore := (doAction s .vcore).supply.vcore } }
        ∧ (doAction s .vcore).supply.vcore = (if 2 ≤ l.dst.num then 24 else 4) - if s.metro.overScaled then s.codes.rubato.eff.toNat - 7 else 0)
      ∧ (∀ n, n < 16 → ∃ t, doAction s (.bank n) = t ∧ t = { s with blocks := { s.blocks with banks := t.blocks.banks }, ram := t.ram }
          ∧ (∀ b, b < 16 → t.blocks.banks.getLsbD b = if b = n then l.up else s.blocks.banks.getLsbD b)
          ∧ (l.up = true → t.ram = s.ram)
          ∧ (l.up = false → s.ram.wf = true → ∀ p, t.ram.read p = if 8 * (p / 8) < heldBase ∧ bankOf (8 * (p / 8)) = n then 0 else s.ram.read p))
      ∧ doAction s .held = { s with blocks := { s.blocks with held := l.up } }
      ∧ (∀ k, 1 ≤ k → k ≤ 8 → ∃ f g : Nat,
          doAction s (.tutti k) = { s with blocks := { s.blocks with tclk := f } }
            ∧ 2 * (((f : Int) - s.blocks.tclk) * (9 - k) - (8 * stTclk s l.dst.num - s.blocks.tclk)).natAbs ≤ 9 - k
            ∧ doAction s (.soli k) = { s with blocks := { s.blocks with sclk := g } }
            ∧ 2 * (((g : Int) - s.blocks.sclk) * (9 - k) - (8 * stSclk s l.dst.num - s.blocks.sclk)).natAbs ≤ 9 - k)
      ∧ (∀ n, n < 8 → ∃ t, doAction s (.cluster n) = t ∧ t = { s with blocks := { s.blocks with clusters := t.blocks.clusters } }
          ∧ ∀ b, b < 8 → t.blocks.clusters.getLsbD b = if b = n then l.up else s.blocks.clusters.getLsbD b)
      ∧ ∀ p, (l.up = true → s.priv.held = false → s.inject 10 = false → s.inject 11 = false →
            doAction s (.plane p) = { s.setPlane p { s.plane p with power := .starting } with
              vpix := { s.vpix with sink := true }
              limiter := { l with planes := l.planes ++ [p], busy := some p, tried := false } })
          ∧ (l.up = true → s.priv.held = true →
            doAction s (.plane p) = { s with
              limiter := { l with planes := l.planes ++ [p] }, priv := { s.priv with byPriv := s.priv.byPriv || s.priv.asserted } })
          ∧ (l.up = false → ∃ t, doAction s (.plane p) = t ∧ (t.plane p).power = .off ∧ (t.plane p).reading = false
              ∧ t.limiter.planes = l.planes.filter (· ≠ p)
              ∧ ∀ q, q ≠ p → (s.plane q).power = .off → t.vpix.ldo = false)

/-- One tick of the limiter: the allowance moves towards the target by the SLEW code's step and not beyond it, then the actions of the list are
performed in order, each as soon as the allowance has reached i_old + (i_new - i_old)(k + 1)/n and the one before it is done, all of them on a ramp
of zero or wrong height; with the last one done the ramp ends, and with Tacet entry's ramp its step 5. -/
def Sys2Proof.Part.TickActs : Prop :=
  ∀ s : State, s.limiter.on = true → s.limiter.paused = false →
    let l := s.limiter
    let flat : Prop := if l.up then l.iNew ≤ l.iOld else l.iOld ≤ l.iNew
    let n := l.k + l.acts.length
    ∃ (t : State) (a : Int) (m : Nat), exec .limiterTick s = .next t ∧ t.vpix.closed = s.vpix.closed ∧ t.aon.tokens = s.aon.tokens
      ∧ t.limiter.allow = a
      ∧ (flat → a = l.iOld)
      ∧ (¬flat → l.allow < l.iNew → a = match slewStep s.boot.slew with
            | none => l.iNew
            | some d => min l.iNew (l.allow + d))
      ∧ (¬flat → l.iNew ≤ l.allow → a = match slewStep s.boot.slew with
            | none => l.iNew
            | some d => max l.iNew (l.allow - d))
      ∧ (let due (j : Nat) : Prop := flat ∨
            (if l.up then l.iOld * n + (l.iNew - l.iOld) * (l.k + j + 1) ≤ a * n else a * n ≤ l.iOld * n + (l.iNew - l.iOld) * (l.k + j + 1))
         let after (j : Nat) : State := (l.acts.take j).foldl doAction { s with limiter := { l with allow := a } }
         m ≤ l.acts.length ∧ (∀ j, j < m → due j ∧ (after j).limiter.busy = none)
           ∧ (m < l.acts.length → ¬due m ∨ (after m).limiter.busy ≠ none)
           ∧ (t.limiter.on = false ↔ m = l.acts.length ∧ (after m).limiter.busy = none)
           ∧ t.limiter = { (after m).limiter with k := l.k + m, acts := l.acts.drop m, on := t.limiter.on }
           ∧ (t.limiter.on = true ∨ s.cond.phase ≠ .tacetEntry 5 → t = { after m with limiter := t.limiter })
           ∧ (t.limiter.on = false → s.cond.phase = .tacetEntry 5 →
               t = { after m with
                 limiter := t.limiter, blocks := Blocks.off, ram := Ram.empty, cond := { (after m).cond with phase := .tacetEntry 4 } }))

/-- A tick of the limiter, and what its actions do. (The list and the allowance of a ramp that was planned anew: log entry 41; a plane whose power-up
fails, log entry 67.) -/
def Obligations.LimiterTick : Prop := Part.TickActs ∧ Part.ActionEffects

/-! ### The Metronome and the Conductor -/

/-- A slot boundary goes on to the next slot, takes one sample of PRIV_N with its hysteresis and changes neither bar, cue, memory nor OTP, and no
ring but where it leads out of a fermata into Tacet or ends the step 3 of a reset. At slot 447 it brings what the reads of the bar start behind it
will find. -/
def Sys2Proof.Part.SlotBegins : Prop :=
  ∀ (s : State) (w : Vector Code 640) (h : Vector Code 320) (pad : PadLevel) (ups bar : List Upset), slotDone s = true →
    (s.metro.slot0 = true ∨ s.metro.slot < 447) → (s.cond.phase = .resetEntry → s.cond.wait < 31) →
    ∃ t, exec (.slotBoundary w h ⟨pad, ups, bar⟩) s = .next t ∧ t.metro.slot = (if s.metro.slot0 then 0 else s.metro.slot + 1)
      ∧ t.metro.slot0 = false ∧ t.metro.barErrors = (if t.metro.slot = 447 then bar else [])
      ∧ t.priv.asserted = (match pad with
          | .low => true
          | .mid => s.priv.asserted
          | .high => false)
      ∧ t.priv.released = (if t.priv.asserted then 0 else min (s.priv.released + 1) 16)
      ∧ t.aon.bar = s.aon.bar ∧ t.exec.cues = s.exec.cues ∧ t.ram = s.ram ∧ t.nvm = s.nvm
      ∧ (¬(s.fermata.isSome ∧ t.metro.slot = 445 ∧ s.cond.next = some .tacet) → t.port.ring = s.port.ring)
      ∧ (t.priv.asserted = true → t.priv.stop = true ∨ t.cond.phase ≠ .running)
      ∧ (s.running = true → romFailures ups ≠ [] → t.exec.stopped = true ∧ t.exec.abandon = true ∧ t.metro.issue = [] ∧ t.cond.force = true
          ∧ (t.det 8).pending = true)

/-- Over-scaling: a slot before slot 444 is over-scaled exactly when the last of its MARK entries, or with none the run before it, leaves a run open,
in a bar that runs its schedule, is not exact and has not ended its runs, at a RUBATO code of 8 or more; such a slot is counted, the counter
saturates, and VCORE lies 12.5 mV below its safe point for each step of the code from 8 on, not below 0.500 V. A fermata keeps the slot that it
found over-scaled so. -/
def Sys2Proof.Part.SlotOverScaled : Prop :=
  ∀ (s : State) (w : Vector Code 640) (h : Vector Code 320) (pad : PadLevel) (ups bar : List Upset), slotDone s = true →
    (s.metro.slot0 = true ∨ s.metro.slot < 447) → s.running = true → romFailures ups = [] →
    ∃ t, exec (.slotBoundary w h ⟨pad, ups, bar⟩) s = .next t
      ∧ (s.fermata = none →
          let marks := if s.metro.sched = true ∧ t.exec.stopped = false then (slotEntries s s.st t.metro.slot).filter fun e => e.kind = 4 else []
          let run := match marks.getLast? with
            | some e => e.arg.getLsbD 0
            | none => s.metro.run
          (t.metro.overScaled = true ↔
              run = true ∧ t.metro.slot < 444 ∧ s.metro.sched = true ∧ s.metro.noRun = false ∧ s.exec.ctx.getLsbD 3 = false
                ∧ 8 ≤ s.codes.rubato.eff.toNat)
            ∧ t.exec.marked = (if t.metro.overScaled then min (s.exec.marked + 1) (2 ^ 32 - 1) else s.exec.marked)
            ∧ (s.limiter.on = false → t.metro.slot < 444 →
                t.supply.vcore = (if 2 ≤ s.st then 24 else 4) - if t.metro.overScaled then s.codes.rubato.eff.toNat - 7 else 0))
      ∧ (s.fermata.isSome → t.metro.slot ≠ 445 → t.metro.overScaled = s.metro.overScaled ∧ t.supply.vcore = s.supply.vcore)

/-- A slot boundary, and over-scaling. (That an error in the schedule stops the bar's entries and that no schedule is read while no bar runs, log entry
74; the fermata that keeps VCORE with its slot, log entry 83.) -/
def Obligations.SlotBoundary : Prop := Part.SlotBegins ∧ Part.SlotOverScaled

/-- The row that waits in the column accumulator enters the stave at the slot's end: each sum over its n² pixels, rounded. -/
def Sys2Proof.Part.RowArrives : Prop :=
  (∀ (x : PlaneState) (k : Fin 16), x.coming = some k.val →
      x.arrive.stave[k] = some (x.acc.map fun v => (v + x.bin * x.bin / 2) / (x.bin * x.bin)) ∧ x.arrive.acc = [] ∧ x.arrive.coming = none
        ∧ ∀ j : Fin 16, j ≠ k → x.arrive.stave[j] = x.stave[j])
    ∧ ∀ x : PlaneState, x.coming = none → x.arrive = x

/-- What a reading plane converts in a slot, at every binning n: a row of the image, black-corrected and limited to 0 to 1023, is added to the
column accumulator, and the n-th row of a binned one takes the stave position that R129 gives; the four black rows are summed, and the fourth
sets the next B_eff (R127, R128). -/
def Sys2Proof.Part.RowConverts : Prop :=
  ∀ (s t : State) (w : Vector Code 640) (h : Vector Code 320) (pad : PadLevel) (ups bar : List Upset) (p : Plane), slotDone s = true →
    (s.plane p).reading = true → s.priv.stop = false → s.priv.ldoOff = false → (s.metro.slot0 = true ∨ s.metro.slot < 443) →
    s.cond.phase ≠ .resetEntry → exec (.slotBoundary w h ⟨pad, ups, bar⟩) s = .next t →
    let x := s.plane p
    let y := t.plane p
    let k := t.metro.slot
    let codes : List Nat := match p with
      | .w => w.toList.map (·.toNat)
      | .h => h.toList.map (·.toNat)
    y.stave = x.arrive.stave
      ∧ (∀ r, r < planeHeight p → k = (match p with
            | .w => r
            | .h => 5 * r / 4) → (x.bin = 1 ∨ x.bin = 2 ∨ x.bin = 4) →
          y.acc.length = planeWidth p / x.bin
            ∧ (∀ c, c < planeWidth p / x.bin → y.acc.getD c 0 = x.arrive.acc.getD c 0
                + ((List.range x.bin).map fun i =>
                    (max 0 (min ((codes.getD (x.bin * c + i) 0 : Int) - roundDiv x.black 16) 1023)).toNat).sum)
            ∧ y.coming = if r % x.bin = x.bin - 1 then some (r / x.bin % 16) else none)
      ∧ ∀ j, j < 4 → k = (match p with
            | .w => 400 + j
            | .h => 404 + j) →
          y.blackSum = x.blackSum + codes.sum ∧ y.black = x.black
            ∧ (j = 3 → ∃ b : Nat, 2 * ((b * (4 * planeWidth p) : Nat) - (16 * y.blackSum : Nat) : Int).natAbs ≤ 4 * planeWidth p
                ∧ y.blackNext = some ((x.black : Int) + roundDiv ((b : Int) - x.black) 4).toNat)

/-- Readout of both planes, every binning, and the black rows. -/
def Obligations.RowReadout : Prop := Part.RowArrives ∧ Part.RowConverts

/-- The slot boundary after an overrun or an uncorrectable error: nothing is in flight or queued any more, memory is scrubbed, and an over-scaled
run ends with VCORE back at its safe point, in fermata with the fermata; no cue changes. (The boundary after slot 0's own where a bar start's reads
have found the error, log entry 74.) -/
def Obligations.AbandonAndScrub : Prop :=
  ∀ s : State, s.counting = true → s.exec.abandon = true → s.metro.due = [] → s.metro.slot0 = false →
    ∃ t, exec .abandonAndScrub s = .next t ∧ t.exec.abandon = false ∧ t.exec.q0 = [] ∧ t.exec.q1 = [] ∧ t.exec.tutti = [] ∧ t.exec.soli = []
      ∧ (∀ c : Ctx, t.section c = none) ∧ t.ram = Ram.empty ∧ t.exec.pins = 0 ∧ (∀ l : Fin 64, t.exec.clips[l] = (0, 0))
      ∧ t.exec.cues = s.exec.cues ∧ t.metro.noRun = true ∧ t.metro.run = false
      ∧ t.metro.overScaled = (s.metro.overScaled && s.fermata.isSome) ∧ t.aon = s.aon ∧ t.port = s.port ∧ t.duet = s.duet
      ∧ (s.metro.overScaled = true → s.fermata = none → s.limiter.on = false → t.supply.vcore = safePoint s.st)

/-- What a bar start leaves whose reads have found an uncorrectable error in ROM or OTP (R333, Table 17-1): no entry is issued, the queues are empty, the
operations are abandoned at the next boundary, and slot 444 is to choose Tacet. -/
def Sys2Proof.Part.StoppedByRead (t : State) : Prop :=
  t.exec.stopped = true ∧ t.exec.abandon = true ∧ t.metro.issue = [] ∧ t.exec.q0 = [] ∧ t.exec.q1 = [] ∧ t.cond.force = true
    ∧ (t.det 8).pending = true

/-- A bar start outside an acquisition hold and outside fermata: the bar counter takes the next number, slot 0 begins with every cue at 0, staves
are empty, confirmed codes take effect, and so does the state chosen at slot 444. A bar start whose reads fail stops the new bar's entries. -/
def Sys2Proof.Part.BarStart : Prop :=
  (∀ s : State, slotDone s = true → s.metro.slot = 447 → s.metro.slot0 = false → s.running = true → s.fermata = none →
    (s.follower && !s.metro.aligned && divisorsEqual s) = false → romFailures s.metro.barErrors = [] →
    ∃ t, exec .barStart s = .next t ∧ t.aon.bar = s.aon.bar + 1 ∧ t.metro.slot = 0 ∧ t.metro.slot0 = true
      ∧ (∀ c : Fin 128, t.exec.cues[c] = 0)
      ∧ (∀ k : Fin 16, t.planeW.stave[k] = none ∧ t.planeH.stave[k] = none)
      ∧ t.codes.rubato.eff = s.codes.rubato.conf.getD s.codes.rubato.eff ∧ t.codes.sense.eff = s.codes.sense.conf.getD s.codes.sense.eff
      ∧ t.codes.inject.eff = s.codes.inject.conf.getD s.codes.inject.eff ∧ t.codes.leak.eff = s.codes.leak.conf.getD s.codes.leak.eff
      ∧ (∀ n, s.cond.next = some n → n ≠ .tacet → t.cond.state = n ∧ t.cond.plan = 0)
      ∧ (s.cond.next = none → t.cond.state = s.cond.state ∧ t.cond.plan = s.cond.plan + 1)
      ∧ t.nvm = s.nvm)
    ∧ ∀ s : State, romFailures s.metro.barErrors ≠ [] →
      (slotDone s = true → s.metro.slot = 447 → s.metro.slot0 = false →
          ¬(s.running = true ∧ s.follower = true ∧ s.metro.aligned = false ∧ divisorsEqual s = true) →
          ∃ t, exec .barStart s = .next t ∧ Part.StoppedByRead t)
        ∧ (s.running = true → s.metro.hold = true → ∃ t, exec .acquisitionHoldTimeout s = .next t ∧ Part.StoppedByRead t)

/-- An operation that is queued or in flight at the end of slot 447 with deadline 448 is an overrun of the bar that ends (R153, R155): with it
everything queued or in flight is abandoned, so that nothing of the old bar is left to post, and memory is scrubbed. -/
def Sys2Proof.Part.LateAtBarEnd : Prop :=
  ∀ s : State, slotDone s = true → s.metro.slot = 447 → s.metro.slot0 = false → s.running = true →
    (s.follower && !s.metro.aligned && divisorsEqual s) = false → s.exec.stopped = false → romFailures s.metro.barErrors = [] →
    ((∃ i, (i ∈ s.exec.tutti ∨ i ∈ s.exec.q0.map (·.index)) ∧ (syncAt s (descOff s i)).deadline = 448)
      ∨ ∃ i, (i ∈ s.exec.soli.map (·.index) ∨ i ∈ s.exec.q1.map (·.index)) ∧ (syncAt s (recOff s i)).deadline = 448) →
    ∃ t, exec .barStart s = .next t ∧ t.exec.tutti = [] ∧ t.exec.soli = [] ∧ t.exec.q0 = [] ∧ t.exec.q1 = [] ∧ (∀ c : Ctx, t.section c = none)
      ∧ t.ram = Ram.empty ∧ (t.det 15).pending = true

/-- A bar start in fermata. A released fermata ends at slot 0 (R96): the bar runs the chosen state, exactly, and a CAUSE 3 record tells the
fermata's length; the record is stated for a module without link and without a record of detector 3 or of a start before it. (FROM and TO of that
record are log entry 46.) A fermata that is not released goes on: state and choice stay, a code confirmed in the bar before it takes effect (log
entry 71), VCORE stays as a marked slot has left it, and no schedule runs. -/
def Sys2Proof.Part.FermataAtBarStart : Prop :=
  (∀ (s : State) (f : Fermata), slotDone s = true → s.metro.slot = 447 → s.metro.slot0 = false → s.running = true →
    s.fermata = some f → f.released = true → (s.follower && !s.metro.aligned && divisorsEqual s) = false → romFailures s.metro.barErrors = [] →
    ∃ t, exec .barStart s = .next t ∧ t.fermata = none ∧ t.aon.bar = s.aon.bar + 1 ∧ t.metro.slot = 0
      ∧ (∀ n, s.cond.next = some n → n ≠ .tacet → t.cond.state = n)
      ∧ (t.metro.sched = true → t.exec.ctx.getLsbD 3 = true)
      ∧ (s.duet.link = .off → (s.det 3).pending = false → s.cond.starting = false → s.port.ring.length < 64 →
          ∃ e, t.port.ring = s.port.ring ++ [e] ∧ e.st = .enqueued ∧ e.data[1] = 0x17 ∧ e.data[8] = 3
            ∧ (e.data[9]).toNat = s.st + 8 * t.st ∧ (e.data[10]).toNat + 256 * (e.data[11]).toNat = min f.len 65535))
    ∧ ∀ (s : State) (f : Fermata), slotDone s = true → s.metro.slot = 447 → s.metro.slot0 = false → s.running = true →
      s.fermata = some f → f.released = false → (s.follower && !s.metro.aligned && divisorsEqual s) = false → romFailures s.metro.barErrors = [] →
      ∃ t, exec .barStart s = .next t ∧ t.fermata = some f ∧ t.aon.bar = s.aon.bar + 1 ∧ t.metro.slot = 0 ∧ t.metro.sched = false
        ∧ t.metro.overScaled = s.metro.overScaled
        ∧ t.cond.state = s.cond.state ∧ t.cond.next = s.cond.next
        ∧ (∀ q ∈ [(s.codes.rubato, t.codes.rubato), (s.codes.sense, t.codes.sense), (s.codes.inject, t.codes.inject), (s.codes.leak, t.codes.leak)],
            q.2 = ⟨q.1.conf.getD q.1.eff, q.1.cand, none⟩)
        ∧ (∀ c : Fin 128, t.exec.cues[c] = 0)

/-- The acquisition hold: a bar start of an unaligned follower with equal divisors holds, the hold samples PRIV_N and the junction, and at its
timeout the next bar begins. -/
def Sys2Proof.Part.AcquisitionHold : Prop :=
  (∀ s : State, slotDone s = true → s.metro.slot = 447 → s.metro.slot0 = false → s.running = true → s.follower = true →
      s.metro.aligned = false → divisorsEqual s = true →
      exec .barStart s = .next { s with metro := { s.metro with hold := true, waited := 0 } })
    ∧ (∀ (s : State) (pad : PadLevel) (j : Int), s.running = true → s.metro.hold = true →
      ∃ t, exec (.acquisitionHoldSample pad j) s = .next t ∧ t.thermal.last = j
        ∧ t.metro = { s.metro with waited := s.metro.waited + 1 } ∧ t.exec = s.exec ∧ t.ram = s.ram
        ∧ t.priv.asserted = (match pad with
            | .low => true
            | .mid => s.priv.asserted
            | .high => false))
    ∧ ∀ s : State, s.running = true → s.metro.hold = true → romFailures s.metro.barErrors = [] →
      ∃ t, exec .acquisitionHoldTimeout s = .next t ∧ t.metro.hold = false ∧ t.metro.slot = 0 ∧ t.metro.slot0 = true
        ∧ t.aon.bar = s.aon.bar + 1 ∧ t.metro.start = s.metro.start + s.metro.len + stBarLen s s.st

/-- How a bar begins, after late operations, in and after a fermata, and with the acquisition hold of a follower. (What an error in the reads of a bar
start leaves is log entry 74.) -/
def Obligations.BarBegins : Prop := Part.BarStart ∧ Part.LateAtBarEnd ∧ Part.FermataAtBarStart ∧ Part.AcquisitionHold

/-- An exposure starts at its cycle of the bar, in the slot that holds it, or at the cycle at which the plane was powered (log entry 84), and not with VPIX
below 0.2 V. (Which exposure word counts where no slot 444 has laid one down is log entry 88.) A thermal sample counts towards throttle and shutdown, each with its hysteresis. -/
def Sys2Proof.Part.ExposureAndThermal : Prop :=
  (∀ (s : State) (p : Plane), s.running = true → s.metro.on = true → (s.plane p).power = .on → s.vpix.above = true →
    let c := (3584 - (exposureFor s p (nextState s)).exp) * s.metro.len / 3584
    s.metro.slot * s.metro.len / 448 ≤ c → c < (s.metro.slot + 1) * s.metro.len / 448 →
    exec (.exposureStart p) s = .next (s.setPlane p { s.plane p with expStart := some (max c ((s.plane p).expStart.getD 0)) }))
    ∧ (∀ (s : State) (p : Plane), s.vpix.above = false → exec (.exposureStart p) s = .next s)
    ∧ ∀ (s : State) (j : Int), Due.thermal ∈ s.metro.due → (s.inj.newly = false ∨ s.metro.slot ≠ 0) →
      ∃ t, exec (.thermalSample j) s = .next t ∧ Due.thermal ∉ t.metro.due ∧ t.thermal.last = j
        ∧ (t.thermal.throttle = true ↔
            (s.thermal.throttle = true ∧ ¬(j ≤ 90 ∧ 15 ≤ s.thermal.cool90)) ∨ (s.thermal.throttle = false ∧ 95 ≤ j ∧ 1 ≤ s.thermal.hot))
        ∧ (t.thermal.shutdown = true ↔
            (s.thermal.shutdown = true ∧ ¬(j ≤ 100 ∧ 15 ≤ s.thermal.cool100)) ∨ (s.thermal.shutdown = false ∧ 110 ≤ j))
        ∧ (s.thermal.shutdown = false → 110 ≤ j → t.priv.stop = true ∧ t.priv.ldoOff = true ∧ (t.det 5).pending = true)
        ∧ t.exec = s.exec ∧ t.ram = s.ram ∧ t.aon = s.aon

/-- The trip that a newly effective injection code forces in slot 0 (R338): it comes with the last fixed action of the slot, the thermal sample or
the heartbeat, and before any entry. -/
def Sys2Proof.Part.ForcedTrip : Prop :=
  (∀ (s : State) (j : Int), s.metro.due = [.thermal] → s.metro.slot = 0 → s.inj.newly = true → s.running = true →
    ∃ u t, exec (.thermalSample j) { s with inj := { s.inj with newly := false } } = .next u ∧ exec (.thermalSample j) s = .next t
      ∧ u.metro.issue = s.metro.issue ∧ t.inj.newly = false ∧ Forced s.inj.code.toNat u t)
    ∧ ∀ s : State, s.metro.due = [.heartbeat] → s.metro.slot = 0 → s.inj.newly = true → s.running = true →
      ∃ u t, exec .heartbeatSend { s with inj := { s.inj with newly := false } } = .next u ∧ exec .heartbeatSend s = .next t
        ∧ u.metro.issue = s.metro.issue ∧ t.inj.newly = false ∧ Forced s.inj.code.toNat u t

/-- The two-bar rule: a code other than the effective one becomes a candidate, the same candidate again is confirmed, any other reading
replaces or clears it; a LEAK code higher than the effective one clears the candidate. -/
def Sys2Proof.Part.TwoBarRule : Prop :=
  (∀ (s : State) (r n j : Measure), Due.resistors ∈ s.metro.due →
    ∃ t, exec (.rubatoSenseInjectSample r n j) s = .next t ∧ Due.resistors ∉ t.metro.due ∧ t.codes.leak = s.codes.leak
      ∧ (∀ q ∈ [(s.codes.rubato, t.codes.rubato, r), (s.codes.sense, t.codes.sense, n), (s.codes.inject, t.codes.inject, j)],
          q.2.1.eff = q.1.eff
            ∧ q.2.1.conf = (if measureCode q.2.2 ≠ q.1.eff ∧ q.1.cand = some (measureCode q.2.2) then some (measureCode q.2.2) else none)
            ∧ q.2.1.cand = (if measureCode q.2.2 ≠ q.1.eff ∧ q.1.cand ≠ some (measureCode q.2.2) then some (measureCode q.2.2) else none))
      ∧ t.exec = s.exec ∧ t.ram = s.ram ∧ t.aon = s.aon)
    ∧ ∀ (s : State) (m : Measure), Due.leak ∈ s.metro.due →
      ∃ t, exec (.leakSample m) s = .next t ∧ Due.leak ∉ t.metro.due ∧ t.codes.leak.eff = s.codes.leak.eff
        ∧ t.codes.leak.conf = (if (measureCode m).toNat < s.codes.leak.eff.toNat ∧ s.codes.leak.cand = some (measureCode m)
            then some (measureCode m) else none)
        ∧ t.codes.leak.cand = (if (measureCode m).toNat < s.codes.leak.eff.toNat ∧ s.codes.leak.cand ≠ some (measureCode m)
            then some (measureCode m) else none)
        ∧ t.codes.rubato = s.codes.rubato ∧ t.codes.sense = s.codes.sense ∧ t.codes.inject = s.codes.inject ∧ t.exec = s.exec
        ∧ t.aon = s.aon

/-- What a slot samples: exposure start, junction, resistors; and the injection that slot 0's fixed actions end with. -/
def Obligations.SlotSamples : Prop := Part.ExposureAndThermal ∧ Part.ForcedTrip ∧ Part.TwoBarRule

/-- Slot 444: the Conductor has run once for the bar. Outside fermata it chooses the next bar's state, limited by floor and caps, and PRESENT and GEST
go with a choice of Tacet and stay 0 and 7 on a follower; in fermata choice and pins stay. A forced Tacet is chosen in either, and is locked.
EVENT, WAKEG and LOST are cleared. (What an error in the tables that it reads leaves is log entry 74; the count of the bars of a hold and of a
fermata, log entry 66; of a received WAKE's windows, log entry 77.) -/
def Obligations.ConductorSlot : Prop :=
  ∀ (s : State) (wake : Bool) (ups : List Upset), Due.conductor ∈ s.metro.due →
    ∃ t, exec (.conductorSlot444 wake ups) s = .next t ∧ Due.conductor ∉ t.metro.due ∧ t.cond.past444 = true ∧ t.nvm = s.nvm
      ∧ t.exec.cues = s.exec.cues ∧ t.metro.slot = s.metro.slot ∧ t.aon.bar = s.aon.bar ∧ t.cond.state = s.cond.state
      ∧ (∀ b, 13 ≤ b → b ≤ 17 → t.touch.summary.getLsbD b = false)
      ∧ (s.cond.force = true → t.cond.next = some .tacet ∧ t.cond.locked = true)
      ∧ (s.fermata = none →
          (s.cond.force = false → romFailures ups = [] → Chooses s t wake)
            ∧ (t.cond.next = some .tacet → t.cond.present = false ∧ t.cond.gest = 7 ∧ t.cond.touchN = true)
            ∧ (s.follower = true → t.cond.present = false ∧ t.cond.gest = 7))
      ∧ (s.fermata.isSome → s.cond.force = false →
          t.cond.next = s.cond.next ∧ t.cond.present = s.cond.present ∧ t.cond.gest = s.cond.gest)

/-- The verdict latch (R317): a post that takes the verdict cue from below VTGT to it or beyond copies the verdict vector, in whichever slot; the copy is
the bar's verdict when slot 444 has not begun and no word of the vector holds an uncorrectable error. Every other post leaves the latch alone. The
POST entry makes such a post, and so do the completions of operations and CPOST. -/
def Sys2Proof.Part.VerdictLatch : Prop :=
  let copied (s t : State) : Prop := (∀ i : Fin 64, t.cond.latch[i] = s.ram.read (vvAddr s + i.val))
    ∧ (t.cond.taken = true ↔ s.metro.slot < 444 ∧ ∀ k, k < 8 → vvAddr s / 8 + k ∉ s.ram.bad)
  let reached (s : State) (cue inc : Nat) : Prop := cue = vCue s ∧ ((s.exec.cues[cue]?).getD 0).toNat < vTgt s
    ∧ vTgt s ≤ min (((s.exec.cues[cue]?).getD 0).toNat + inc) 65535
  (∀ (s : State) (cue inc : Nat), cue < 128 → 0 < inc →
      (reached s cue inc → copied s (post s cue inc [])) ∧ (¬reached s cue inc → (post s cue inc []).cond = s.cond))
    ∧ ∀ (s : State) (r : List Entry) (k : Nat) (cue : BitVec 7) (inc : BitVec 9),
      s.metro.issue = ⟨k, 0, BitVec.ofNat 16 (cue.toNat + 128 * inc.toNat)⟩ :: r → s.metro.due = [] → 0 < inc.toNat →
      ∃ t, exec (.post cue inc []) s = .next t ∧ (reached s cue.toNat inc.toNat → copied s t)
        ∧ (¬reached s cue.toNat inc.toNat → t.cond = s.cond)

/-- The vector that slot 444 applies: a module's own latch; a leader's is fused, each rule in table order from its own element and the partner's
fresh verdict of the bar before, when that has come (R300, R301, Table 15-5). -/
def Sys2Proof.Part.Fusion : Prop :=
  (∀ s : State, s.leader = false ∨ secLen s 9 = 0 → appliedVerdict s = s.cond.latch)
    ∧ ∀ (s : State) (e : Nat), s.leader = true → secLen s 9 ≠ 0 → e < 64 →
      let n := secU s 9 6 1
      let rule (k : Nat) := secU s 9 (8 + 4 * k) 4
      let own (i : Nat) := ((s.cond.latch[i]?).getD 0).toNat
      ((∀ k, k < n → field (rule k) 0 5 ≠ e) → (appliedVerdict s)[e]? = s.cond.latch[e]?)
        ∧ ∀ k, k < n → field (rule k) 0 5 = e → (∀ j, k < j → j < n → field (rule j) 0 5 ≠ e) →
          let a := own (field (rule k) 5 5)
          let value : Nat := match s.duet.partner.find? fun p => p.bar = s.aon.bar - 1 with
            | none => a
            | some p =>
              let b : Nat := match field (rule k) 10 3 with
                | 6 => if p.present then 1 else 0
                | 7 => p.gest.toNat
                | i => ((p.elems[i]?).getD 0).toNat
              match field (rule k) 13 3 with
                | 0 => a
                | 1 => b
                | 2 => max a b
                | 3 => min a b
                | 4 => a ||| b
                | 5 => (a + b + 1) / 2
                | _ => min 255 (a + b)
          (appliedVerdict s)[e]? = some (BitVec.ofNat 8 value)

/-- The pins of slot 444, and the count of bars without a fresh verdict, in fermata as well (R73 to R75). -/
def Sys2Proof.Part.PinsAt444 : Prop :=
  ∀ (s : State) (wake : Bool) (ups : List Upset), Due.conductor ∈ s.metro.due → romFailures ups = [] →
    ∃ t, exec (.conductorSlot444 wake ups) s = .next t
      ∧ (s.fermata = none → t.cond.next ≠ some .tacet → Pins s t.cond.present t.cond.gest)
      ∧ (Fresh s → t.cond.stale = 0 ∧ t.cond.hold = 0) ∧ (¬Fresh s → Counted s t.cond.stale t.cond.hold)

/-- What a fresh verdict starts (R261, R302, R304): the effect that its map names, a WAKE frame, a swap request or the module's own hold of one.
Nothing of it where Tacet is chosen in the same slot for the driver. -/
def Sys2Proof.Part.FreshActs : Prop :=
  ∀ (s : State) (wake : Bool) (ups : List Upset), Due.conductor ∈ s.metro.due → romFailures ups = [] → Fresh s →
    let e := named s (appliedVerdict s) 3
    let h := named s (appliedVerdict s) 4
    ∃ t, exec (.conductorSlot444 wake ups) s = .next t
      ∧ (t.cond.next ≠ some .tacet → t.accent =
          if 1 ≤ e ∧ e ≤ nEff s then
            match s.accent.state with
            | .idle => { s.accent with state := .armed e }
            | .overdrive _ _ => { s.accent with pending := some e, cut := true }
            | .sustain _ _ => { s.accent with pending := some e, cut := true }
            | _ => { s.accent with pending := some e }
          else s.accent)
      ∧ (h ≠ 0 → s.duet.link = .up → t.duet.q3.length < 16 → ∃ m ∈ t.duet.q3, m.type = 6 ∧ m.released = false
          ∧ (m.body[0]).toNat + 256 * (m.body[1]).toNat = s.aon.bar.toNat ∧ (m.body[2]).toNat = h)
      ∧ (named s (appliedVerdict s) 5 ≠ 0 → s.duet.link = .up → s.duet.handover = false → s.duet.commit = none →
          (s.role = false → t.duet.held = true)
            ∧ (s.role = true → t.duet.q3.length < 16 → ∃ m ∈ t.duet.q3, m.type = 7 ∧ m.released = false ∧ (m.body[0]).toNat = s.duet.epoch.toNat))

/-- A verdict from its latch to the pins and to what it starts. (What a fermata's bars and a PRIV toggle count, log entry 66.) -/
def Obligations.FreshVerdict : Prop := Part.VerdictLatch ∧ Part.Fusion ∧ Part.PinsAt444 ∧ Part.FreshActs

/-- The records of a slot 444 in a module that is no follower, or in a handover bar, in the order of R272: fault records by ascending DET, the record of
a start that ends here, state-change records by ascending CAUSE, in a leader those of its partner (log entry 36), planned records. Stated for a ring
that holds nothing before, so that no record is dropped, and a map whose types are those of Table 14-2. -/
def Sys2Proof.Part.OwnRecords : Prop :=
  ∀ (s : State) (wake : Bool), Due.conductor ∈ s.metro.due → s.port.ring = [] → s.relays = false → s.cond.deferred = [] →
    s.cond.state ≠ .tacet → (s.cond.starting = true → s.metro.sched = true ∧ s.fermata = none) → s.duet.relayed.length ≤ 20 →
    s.metro.slot < 448 → (∀ i, i < 6 → field (planEntry s s.st i) 0 4 ≤ 6) →
    ∃ (t : State) (causes : List Nat) (stale : Bool), exec (.conductorSlot444 wake []) s = .next t ∧ Causes s t causes
      ∧ (stale = true ↔ ¬Fresh s) ∧ (∀ e ∈ t.port.ring, e.st = .enqueued)
      ∧ t.port.ring.map recordKey = eventKeys s causes
          ++ (if s.leader then s.duet.relayed.map fun r => (r.1.toNat, 1, 0) else []) ++ plannedKeys s stale

/-- Slot 444 of a follower outside a handover bar: it enqueues its VERDICT frame, then the same records as pairs of REC_A and REC_B for the leader to
relay, then at most the WAKE frame and the swap request of a fresh verdict; its own event ring gets none and its sequence counter stays. Stated for a
queue that holds nothing before and has room for all. -/
def Sys2Proof.Part.FollowerSends : Prop :=
  ∀ (s : State) (wake : Bool), Due.conductor ∈ s.metro.due → s.duet.q3 = [] → s.relays = true → s.cond.deferred = [] →
    s.cond.state ≠ .tacet → (s.cond.starting = true → s.metro.sched = true ∧ s.fermata = none) →
    (∀ i, i < 6 → field (planEntry s s.st i) 0 4 ≤ 6) →
    ∃ (t : State) (causes : List Nat) (stale : Bool), exec (.conductorSlot444 wake []) s = .next t ∧ Causes s t causes
      ∧ (stale = true ↔ ¬Fresh s) ∧ t.port.ring = s.port.ring ∧ t.aon.seq = s.aon.seq ∧ (∀ m ∈ t.duet.q3, m.released = false)
      ∧ ((eventKeys s causes ++ plannedKeys s stale).length ≤ 6 →
          ∃ (v : Msg) (p : List (Msg × Msg)) (r : List Msg) (present : Bool) (gest : BitVec 3),
            t.duet.q3 = v :: p.flatMap (fun x => [x.1, x.2]) ++ r
              ∧ v.type = 3 ∧ FramePins s present gest
              ∧ (v.body[0]).toNat + 256 * (v.body[1]).toNat = s.aon.bar.toNat
              ∧ (v.body[2]).toNat = (if stale then 0 else 1) + (if present then 2 else 0) + 4 * gest.toNat
              ∧ (v.body[3]).toNat + 256 * (v.body[4]).toNat + 65536 * (v.body[5]).toNat = s.touch.summary.toNat % 2 ^ 20
              ∧ (∀ k : Fin 6, v.body[6 + k.val] =
                  ((s.cond.latch[if secLen s 9 = 0 then k.val else secU s 9 k.val 1]?).getD 0))
              ∧ (∀ x ∈ p, x.1.type = 4 ∧ x.2.type = 5)
              ∧ p.map (fun x => relayKey x.1) = (eventKeys s causes ++ plannedKeys s stale).map (fun k => (k.1, k.2.2))
              ∧ r.Pairwise (fun a b => a.type = 6 ∧ b.type = 7) ∧ (∀ m ∈ r, Fresh s ∧ (m.type = 6 ∨ m.type = 7)))

/-- What slot 444 enqueues, in order. (The record of a start, its CAUSE 0 with FROM 0 and the state of the first complete bar as TO, log entry 46; no
CAUSE 2 or 4 record beside Tacet's and a start that ends in it, log entry 43; the fields of a VERDICT frame with FRESH 0, log entry 91.) -/
def Obligations.ConductorRecords : Prop := Part.OwnRecords ∧ Part.FollowerSends

/-! ### Tacet, supervision and fermata -/

/-- Tacet entry, Tacet, and the way out of it: slot 445 begins step 6, or step 5 where VPIX is low already, also out of a fermata that has been
released; the drain ends step 4, an up module enqueues its NOTICE for step 3, which lasts 2 beats at most; step 2 turns the core base off. (The
phases 6 to 2, slots that go on in them and the 32 slots at which step 3 ends: log entry 49; the steps that have nothing to do pass at once, log
entry 69.) -/
def Obligations.TacetSequence : Prop :=
  (∀ (s : State) (w : Vector Code 640) (h : Vector Code 320) (pad : PadLevel) (ups bar : List Upset), slotDone s = true → s.metro.slot = 444 →
      s.metro.slot0 = false → s.running = true → (∀ f, s.fermata = some f → f.released = true) → s.cond.next = some .tacet →
    ∃ t, exec (.slotBoundary w h ⟨pad, ups, bar⟩) s = .next t ∧ t.metro.slot = 445 ∧ t.fermata = none ∧ t.metro.overScaled = false
      ∧ t.vpix.ldo = false ∧ t.vpix.sink = t.vpix.above
      ∧ t.vpix.above = s.vpix.above ∧ t.planeW.power = .off ∧ t.planeH.power = .off ∧ t.planeW.reading = false ∧ t.planeH.reading = false
      ∧ t.cond.phase = (if s.vpix.above then .tacetEntry 6 else .tacetEntry 5))
    ∧ (∀ (s : State) (elapsed : Bool), s.cond.phase = .tacetEntry 4 → (elapsed = true ∨ ∀ e ∈ s.port.ring, e.st = .enqueued) →
      ∃ t, exec (.tacetEventPortDrain elapsed) s = .next t ∧ t.port.on = false ∧ t.port.ring = []
        ∧ t.aon.drops ≥ min (s.aon.drops + s.port.ring.length) 65535 ∧ t.aon.tokens = s.aon.tokens
        ∧ (s.duet.link = .up → t.cond.phase = .tacetEntry 3
            ∧ (s.duet.q3.length < 16 → ∃ m, t.duet.q3 = s.duet.q3 ++ [m] ∧ m.type = 9 ∧ m.body[0] = 1 ∧ m.released = false))
        ∧ (s.duet.link ≠ .up → t.cond.phase = .tacetEntry 2 ∧ t.duet = { Duet.off with tx := s.duet.tx }))
    ∧ (∀ (s : State) (w : Vector Code 640) (h : Vector Code 320) (pad : PadLevel) (ups bar : List Upset), slotDone s = true →
        (s.metro.slot0 = true ∨ s.metro.slot < 447) → s.cond.phase = .tacetEntry 3 →
      ∃ t, exec (.slotBoundary w h ⟨pad, ups, bar⟩) s = .next t
        ∧ (s.cond.wait < 31 → t.cond.phase = .tacetEntry 3 ∧ t.cond.wait = s.cond.wait + 1)
        ∧ (31 ≤ s.cond.wait → t.cond.phase = .tacetEntry 2 ∧ t.duet.link = .off ∧ t.duet.q3 = []))
    ∧ (∀ s : State, s.cond.phase = .tacetEntry 2 →
      ∃ t, exec .tacetEntryEnd s = .next t ∧ t.cond.phase = .tacet ∧ t.cond.locked = s.cond.locked ∧ t.supply.core = false
        ∧ t.supply.armed = false ∧ t.ram = Ram.empty ∧ t.exec = Exec.zero ∧ t.blocks = Blocks.off ∧ t.duet.link = .off
        ∧ t.aon.wakeTimer = (if s.cond.locked ∨ tacetWake s = 0 then none else some (32000 * tacetWake s))
        ∧ t.codes.rubato = ⟨s.codes.rubato.eff, none, none⟩ ∧ t.aon.tokens = s.aon.tokens ∧ t.aon.bar = s.aon.bar ∧ t.nvm = s.nvm)
    ∧ (∀ s : State, s.cond.phase = .tacet → s.cond.locked = false →
      exec .wakeHighInTacet s = .next
        { s with aon := { s.aon with wakeTimer := none }, cond := { s.cond with phase := .tacetExit, cause := 1, entry := 1 } })
    ∧ (∀ s : State, s.cond.phase = .tacet → s.cond.locked = false → s.aon.wakeTimer.isSome →
      exec .aonWakeTimer s = .next
        { s with aon := { s.aon with wakeTimer := none }, cond := { s.cond with phase := .tacetExit, cause := 1, entry := 2 } })
    ∧ ∀ s : State, s.cond.phase = .tacetExit →
      ∃ t, exec .coreBaseStepComplete s = .next t ∧ t.cond.phase = .verifying true ∧ t.supply.core = true ∧ t.supply.armed = true
        ∧ t.port.on = true ∧ t.duet.link = (if s.boot.straps.duet then .seeking else .off) ∧ t.ram = Ram.empty

/-- A warning counts for the warning cap and on detector 1 and calls for a fermata at the next slot boundary; VCORE undervoltage trips detector 3 and
calls for one in the same way. In a fermata either restarts the wait for its end. A warning of a module that runs no bars calls for none, and is kept
for its first bar (log entries 11 and 75). -/
def Sys2Proof.Part.Supervision : Prop :=
  (∀ s : State, s.aon.on = true → ∃ t, exec .vwarnTrip s = .next t ∧ t.supply.low = true
      ∧ (s.running = false → t.fermataNext = s.fermataNext ∧ t.fermata = s.fermata)) ∧
  (∀ s : State, s.running = true →
    ∃ t, exec .vwarnTrip s = .next t ∧ t.aon.warnings.sum = s.aon.warnings.sum + 1 ∧ (t.det 1).pending = true
      ∧ (s.aon.warnCap = false → 8 ≤ s.aon.warnings.sum → t.aon.capNext = true)
      ∧ (s.fermata = none → t.fermataNext = some true ∧ t.fermata = none)
      ∧ (∀ f, s.fermata = some f → t.fermata = some { f with released := false } ∧ t.limiter.paused = s.limiter.on)
      ∧ t.exec = s.exec ∧ t.ram = s.ram ∧ t.metro = s.metro)
    ∧ ∀ s : State, s.running = true →
      ∃ t, exec .vcoreUndervoltage s = .next t ∧ (t.det 3).pending = true ∧ t.aon = s.aon
        ∧ (s.fermata = none → t.fermataNext = some (s.fermataNext.getD false) ∧ t.fermata = none)
        ∧ (∀ f, s.fermata = some f → t.fermata = some { f with released := false } ∧ t.limiter.paused = s.limiter.on)
        ∧ t.exec = s.exec ∧ t.ram = s.ram ∧ t.metro = s.metro

/-- Fermata: at its entry operations are abandoned, readout stops, memory is scrubbed, candidate codes are cleared and a running ramp, VCORE and the Soli
ceiling are held; a bar that the boundary completes has had no fermata; when its condition has held for 2 beats it is released, and a ramp that slot 444 has called for starts or is planned anew, or it ends where slot
444 has chosen Tacet. (That a code confirmed in the bar that a fermata abandons is void with it is log entry 71; VCORE and the engine clocks of a marked slot, log
entry 83.) -/
def Sys2Proof.Part.FermataSequence : Prop :=
  (∀ (s : State) (w : Bool), s.fermataNext = some w → s.running = true → s.metro.due = [] → s.metro.issue = [] →
    ∃ t, exec .fermataEntry s = .next t ∧ t.fermata = some ⟨w, 0, false⟩ ∧ t.fermataNext = none ∧ t.exec.q0 = [] ∧ t.exec.q1 = []
      ∧ t.exec.tutti = [] ∧ t.exec.soli = [] ∧ (∀ c : Ctx, t.section c = none) ∧ t.ram = Ram.empty ∧ t.planeW.reading = false
      ∧ t.planeH.reading = false ∧ t.touch.scanning = false ∧ t.limiter.paused = s.limiter.on
      ∧ (∀ q ∈ [(s.codes.rubato, t.codes.rubato), (s.codes.sense, t.codes.sense), (s.codes.inject, t.codes.inject), (s.codes.leak, t.codes.leak)],
          q.2 = ⟨q.1.eff, none, if s.metro.slot = 447 then q.1.conf else none⟩)
      ∧ t.supply = s.supply ∧ t.metro.overScaled = s.metro.overScaled ∧ t.blocks = s.blocks
      ∧ t.cond.ranFermata = (s.cond.ranFermata || decide (s.metro.slot ≠ 447))
      ∧ t.aon = s.aon ∧ t.exec.cues = s.exec.cues ∧ t.metro.slot = s.metro.slot)
    ∧ (∀ (s : State) (f : Fermata), s.fermata = some f → f.released = false → s.running = true → s.cond.next ≠ some .tacet →
      ∃ t, exec .fermataEnd s = .next t ∧ t.fermata = some { f with released := true } ∧ t.limiter.paused = false ∧ t.exec = s.exec
        ∧ t.supply.low = false
        ∧ ∀ n, s.cond.next = some n → s.limiter.armed = true →
            t.limiter.armed = false
              ∧ (s.limiter.on = true → t.limiter.on = true ∧ t.limiter.dst = n ∧ t.limiter.iOld = s.limiter.allow ∧ t.limiter.allow = s.limiter.allow
                  ∧ t.limiter.iNew = peakUA s n.num ∧ t.limiter.k = 0)
              ∧ (s.limiter.on = false → isUpward s s.st n.num = true →
                  t.limiter.on = true ∧ t.limiter.up = true ∧ t.limiter.dst = n ∧ t.limiter.allow = peakUA s s.st ∧ t.limiter.iNew = peakUA s n.num))
    ∧ ∀ (s : State) (f : Fermata), s.fermata = some f → f.released = false → s.running = true → s.cond.next = some .tacet →
      ∃ t, exec .fermataEnd s = .next t ∧ t.fermata = none ∧ t.supply.low = false ∧ t.planeW.reading = false ∧ t.planeH.reading = false
        ∧ t.vpix.ldo = false
        ∧ (s.vpix.above = true → t.cond.phase = .tacetEntry 6)
        ∧ (s.vpix.above = false → t.cond.phase = .tacetEntry 5 ∧ t.exec.q0 = [] ∧ t.exec.soli = [] ∧ t.limiter.up = false ∧ t.limiter.iNew = 0)

/-- Supply warnings, and the fermata that they call for. -/
def Obligations.WarningsAndFermata : Prop := Part.Supervision ∧ Part.FermataSequence

/-! ### Clock, gate and event port -/

/-- REF_CLK: a first edge begins a period; 32 good periods in a row make it valid; a bad one, or no edge for 122 us, makes it invalid and holds the
trim; a run of 32 periods, whose cycles are the sum of its periods, ends in a move of the trim of at most 0.1 %. (The window of a good period in
48 MHz cycles, and that the edge after a bad period begins none, is log entry 31; the oscillator's range, log entry 14.) -/
def Obligations.ReferenceClock : Prop :=
  (∀ (s : State) (n : Nat), s.supply.core = true → (s.ref.run < 32 ∨ s.ref.valid = false) →
    ∃ r, exec (.refClkEdge n) s = .next { s with ref := r } ∧ r.seen = (!(s.ref.seen && s.ref.valid && !goodPeriod n))
      ∧ (s.ref.seen = false → r.good = 0 ∧ r.valid = s.ref.valid)
      ∧ (s.ref.seen = true → goodPeriod n = false → r.valid = false ∧ r.good = 0 ∧ r.runs = 0)
      ∧ (s.ref.seen = true → goodPeriod n = true → s.ref.valid = true →
          r.valid = true ∧ r.run = min (s.ref.run + 1) 32 ∧ r.sum = s.ref.sum + n)
      ∧ (s.ref.seen = true → goodPeriod n = true → s.ref.valid = false →
          (r.valid = true ↔ s.ref.good + 1 = 32) ∧ r.good = s.ref.good + 1 ∧ (r.valid = true → r.run = 0 ∧ r.sum = 0)))
    ∧ (∀ n : Nat, goodPeriod n = true ↔ (32 * (n : Int) - 46875).natAbs * 1000 ≤ 46875)
    ∧ (∀ s : State, s.supply.core = true →
      exec .refClkTimeout s = .next { s with ref := ⟨false, 0, false, 0, 0, 0⟩ })
    ∧ ∀ s : State, s.supply.core = true → s.ref.valid = true → s.ref.run = 32 →
      ∃ x, exec (.trimRunEnd s.ref.sum) s =
          .next { s with ref := { s.ref with run := 0, sum := 0, runs := min (s.ref.runs + 1) 24 }, aon := { s.aon with trim := x } }
        ∧ (x - s.aon.trim).natAbs ≤ 50
        ∧ (let e := max (-1000) (min Config.oscillatorError 1000)
           s.aon.trim + e ≤ 1000 → -1000 ≤ s.aon.trim + e →
            -1000 ≤ x + e ∧ x + e ≤ 1000 ∧ (46875 < s.ref.sum → x ≤ s.aon.trim) ∧ (s.ref.sum < 46875 → s.aon.trim ≤ x))

/-- AON edges refill the gate, up to the edge at which an entry is to be released; nothing else of the state changes, and before a LEAK code is
latched nothing at all. -/
def Sys2Proof.Part.TokenRefill : Prop :=
  (∀ (s : State) (n : Nat) (l : RzCode), s.aon.on = true → s.aon.leak = some l → s.port.release = false →
    let waits := (∃ e ∈ s.port.ring, e.st = .enqueued) ∨ ∃ m ∈ s.duet.q3, m.released = false
    ∃ acc tokens rel, exec (.tokenRefill n) s =
          .next { s with aon := { s.aon with acc := acc, tokens := tokens }, port := { s.port with release := rel } }
      ∧ (∃ b, (b = true ↔ waits) ∧ gateEdges n (leakRate l) b (s.aon.acc, s.aon.tokens) = ((acc, tokens), rel))
      ∧ (¬waits → s.aon.tokens < 8 → s.aon.acc + n * leakRate l < 32960 → acc = s.aon.acc + n * leakRate l ∧ tokens = s.aon.tokens)
      ∧ (n = 1 → s.aon.tokens < 7 → 32960 ≤ s.aon.acc + leakRate l → acc = s.aon.acc + leakRate l - 32960 ∧ tokens = s.aon.tokens + 1)
      ∧ (8 ≤ s.aon.tokens → 1 ≤ n → acc = 0 ∧ tokens = s.aon.tokens)
      ∧ (rel = true ↔ waits ∧ 1 ≤ n ∧ tokens ≠ 0))
    ∧ (∀ (s : State) (n : Nat), s.aon.leak = none → exec (.tokenRefill n) s = .next s)
    ∧ ∀ (s : State) (n : Nat), s.port.release = true → exec (.tokenRefill n) s = .next s

/-- At the edge that has found a token and a waiting entry one token is spent and the oldest waiting entry is released: of the link's ring when its
oldest is as old as the event ring's or older. Without such an edge nothing is released. -/
def Sys2Proof.Part.RecordRelease : Prop :=
  (∀ (s : State) (n : Nat) (r : List RingEntry) (e : RingEntry) (u : List RingEntry), s.port.release = true → s.aon.tokens = n + 1 →
      s.port.ring = r ++ e :: u → e.st = .enqueued → (∀ x ∈ r, x.st ≠ .enqueued) →
      (∀ m ∈ s.duet.q3, m.released = false → e.stamp < m.stamp) →
      exec .recordRelease s = .next { s with
        aon := { s.aon with tokens := n }, port := { s.port with ring := r ++ { e with st := .released } :: u, release := false } })
    ∧ (∀ (s : State) (n : Nat) (r : List Msg) (m : Msg) (u : List Msg), s.port.release = true → s.aon.tokens = n + 1 →
      s.duet.q3 = r ++ m :: u → m.released = false → (∀ x ∈ r, x.released = true) →
      (∀ e ∈ s.port.ring, e.st = .enqueued → m.stamp ≤ e.stamp) →
      exec .recordRelease s = .next { s with
        aon := { s.aon with tokens := n }, port := { s.port with release := false }
        duet := { s.duet with q3 := r ++ { m with released := true } :: u } })
    ∧ ∀ s : State, s.port.release = false → exec .recordRelease s = .next s

/-- The gate refills at the LEAK rate and no faster, and a token releases the oldest waiting entry. -/
def Obligations.GateRefill : Prop := Part.TokenRefill ∧ Part.GateCountsExactly ∧ Part.RecordRelease

/-- One transaction of the event port: the oldest entry that is released or partly read is served and is partly read from then on, exactly 256
edges retire it; with no such entry an idle record is served, and exactly 256 edges advance the idle count. -/
def Obligations.EventPort : Prop :=
  (∀ (s : State) (n : Nat) (r : List RingEntry) (e : RingEntry) (u : List RingEntry), s.port.on = true →
      s.port.ring = r ++ e :: u → e.st ≠ .enqueued → (∀ x ∈ r, x.st = .enqueued) →
      exec (.eventPortTransaction n) s = .next { s with port := { s.port with
        ring := if n = 256 then r ++ u else r ++ { e with st := .partly } :: u
        served := some (e.data, n) } })
    ∧ ∀ (s : State) (n : Nat), s.port.on = true → (∀ x ∈ s.port.ring, x.st = .enqueued) →
      ∃ r : Record, exec (.eventPortTransaction n) s = .next { s with
          port := { s.port with served := some (r, n) }
          aon := { s.aon with idle := if n = 256 then s.aon.idle + 1 else s.aon.idle } }
        ∧ r[0] = 0xA5 ∧ r[1] = 0x1F ∧ r[2] = s.aon.idle ∧ ∀ k : Fin 20, r[8 + k.val] = 0

/-! ### Schedule entries, queues and operations -/

/-- POST, LAUNCH_T, LAUNCH_S and MARK: once the slot's fixed actions are done, the entry at the head of the slot's list is issued. A post adds its
increment, saturating; a launch is appended to its queue, or is an overrun when the queue is full; a MARK begins or ends a run. -/
def Sys2Proof.Part.Entries : Prop :=
  (∀ (s : State) (r : List Entry) (k : Nat) (cue : BitVec 7) (inc : BitVec 9) (ups : List Upset), s.metro.due = [] →
    s.metro.issue = ⟨k, 0, BitVec.ofNat 16 (cue.toNat + 128 * inc.toNat)⟩ :: r →
    ∃ t, exec (.post cue inc ups) s = .next t ∧ (t.metro.issue = r ∨ t.exec.stopped = true)
      ∧ (∀ j : Fin 128, (t.exec.cues[j]).toNat =
          if j.val = cue.toNat then min ((s.exec.cues[j]).toNat + inc.toNat) 65535 else (s.exec.cues[j]).toNat)
      ∧ t.exec.tutti = s.exec.tutti ∧ t.exec.soli = s.exec.soli ∧ t.port = s.port)
    ∧ (∀ (s : State) (r : List Entry) (k : Nat) (i : BitVec 16), s.metro.due = [] → s.metro.issue = ⟨k, 1, i⟩ :: r → s.exec.q0.length < 32 →
      exec (.launchT i) s = .next { s with
        metro := { s.metro with issue := r }, exec := { s.exec with q0 := s.exec.q0 ++ [⟨i.toNat, s.metro.slot⟩] } })
    ∧ (∀ (s : State) (r : List Entry) (k : Nat) (i : BitVec 16), s.metro.due = [] → s.metro.issue = ⟨k, 2, i⟩ :: r → s.exec.q1.length < 32 →
      exec (.launchS i) s = .next { s with
        metro := { s.metro with issue := r }, exec := { s.exec with q1 := s.exec.q1 ++ [⟨i.toNat, s.metro.slot⟩] } })
    ∧ (∀ (s : State) (r : List Entry) (k : Nat) (i : BitVec 16) (soli : Bool), s.metro.due = [] →
      s.metro.issue = ⟨k, if soli then 2 else 1, i⟩ :: r → (if soli then s.exec.q1 else s.exec.q0).length = 32 →
      ∃ t, exec (if soli then .launchS i else .launchT i) s = .next t ∧ t.exec.stopped = true ∧ t.exec.abandon = true ∧ t.exec.q0 = []
        ∧ t.exec.q1 = [] ∧ t.metro.issue = [] ∧ (t.det 15).pending = true
        ∧ (t.det 15).detail = BitVec.ofNat 32 (i.toNat + (if soli then 65536 else 0) + 131072 + 262144 * s.metro.slot))
    ∧ (∀ (s : State) (r : List Entry) (k : Nat) (b : Bool), s.metro.due = [] → s.metro.issue = ⟨k, 4, if b then 1 else 0⟩ :: r →
      exec (.mark b) s = .next { s with metro := { s.metro with issue := r, run := b } })
    ∧ ∀ (s : State) (c : Instr), s.metro.due ≠ [] →
      (∃ cue inc ups, c = .post cue inc ups) ∨ (∃ i, c = .launchT i ∨ c = .launchS i) ∨ (∃ b l, c = .sample b l) ∨ (∃ b, c = .mark b) →
      exec c s = .next s

/-- The pin-sample word: a SAMPLE writes its bit and no other, the word reads at its address, its reserved bits stay 0, and a scrub clears it. -/
def Sys2Proof.Part.PinSample : Prop :=
  (∀ (s : State) (r : List Entry) (k : Nat) (chg level : Bool), s.metro.due = [] → s.metro.issue = ⟨k, 3, if chg then 1 else 0⟩ :: r →
    ∃ v : BitVec 32, exec (.sample chg level) s = .next { s with metro := { s.metro with issue := r }, exec := { s.exec with pins := v } }
      ∧ v.getLsbD (if chg then 1 else 0) = level
      ∧ ∀ j, j ≠ (if chg then 1 else 0) → v.getLsbD j = s.exec.pins.getLsbD j)
    ∧ (∀ (s : State) (j : Nat), j < 4 → soliRead s (0x31000004 + j) = s.exec.pins.extractLsb' (8 * j) 8)
    ∧ (∀ s : State, (scrub s).exec.pins = 0)
    ∧ State.reset.exec.pins = 0
    ∧ ∀ s : State, Inv s → ∀ j, 2 ≤ j → s.exec.pins.getLsbD j = false

/-- The five kinds of schedule entries, the pin-sample word with them. -/
def Obligations.EntriesIssued : Prop := Part.Entries ∧ Part.PinSample

/-- Q0: its head dispatches when its waits are met and fewer than 8 descriptors are in flight; otherwise the queue keeps it. -/
def Sys2Proof.Part.DispatchTutti : Prop :=
  ∀ (s : State) (e : QEntry) (r : List QEntry) (ups : List Upset), s.exec.q0 = e :: r → romFailures ups = [] →
    let y := syncAt s (descOff s e.index)
    let met := ∀ w ∈ [y.a, y.b], w.active = true → w.target ≤ ((s.exec.cues[w.cue]?).getD 0).toNat
    (met → s.exec.tutti.length < 8 →
        exec (.queueDispatch ⟨false, ups⟩) s = .next { s with exec := { s.exec with q0 := r, tutti := s.exec.tutti ++ [e.index] } })
      ∧ (¬(met ∧ s.exec.tutti.length < 8) → exec (.queueDispatch ⟨false, ups⟩) s = .next s)

/-- Q1: its head dispatches, while the Soli engine has a clock (R79) and fewer than 8 operations are in flight, when its waits are met and there is
room: for a kernel, free contexts for its sections, which start at word 0 with zero registers; for a helper job, no other job of its kind. In
every other case the queue keeps its head. (Of the free contexts the lowest are taken: the model's choice, log entry 76.) -/
def Sys2Proof.Part.DispatchSoli : Prop :=
  ∀ (s : State) (e : QEntry) (r : List QEntry) (ups : List Upset), s.exec.q1 = e :: r → romFailures ups = [] →
    let y := syncAt s (recOff s e.index)
    let met := ∀ w ∈ [y.a, y.b], w.active = true → w.target ≤ ((s.exec.cues[w.cue]?).getD 0).toNat
    let free := (List.finRange 32).filter fun c => (s.section c).isNone
    let n := field (bodyU s (recOff s e.index + 12) 4) 2 5 + 1
    let goes := met ∧ s.exec.soli.length < 8 ∧ stSclk s s.st ≠ 0
    (goes → recKind s e.index = 0 → n ≤ free.length →
        ∃ t, exec (.queueDispatch ⟨true, ups⟩) s = .next t ∧ t = { s with exec := { t.exec with cues := s.exec.cues, tutti := s.exec.tutti } }
          ∧ t.exec.q0 = s.exec.q0 ∧ t.exec.q1 = r ∧ t.exec.soli = s.exec.soli ++ [⟨s.exec.opId, e.index, 0, free.take n⟩]
          ∧ (∀ (c : Ctx) (k : Nat), (free.take n)[k]? = some c → t.section c = some (Section.start s.exec.opId k))
          ∧ ∀ c : Ctx, c ∉ free.take n → t.section c = s.section c)
      ∧ (goes → recKind s e.index ≠ 0 → (∀ o ∈ s.exec.soli, o.kind ≠ recKind s e.index) →
        exec (.queueDispatch ⟨true, ups⟩) s = .next { s with exec := { s.exec with
          q1 := r, soli := s.exec.soli ++ [⟨s.exec.opId, e.index, recKind s e.index, []⟩], opId := s.exec.opId + 1 } })
      ∧ (¬met ∨ 8 ≤ s.exec.soli.length ∨ stSclk s s.st = 0 ∨ (recKind s e.index = 0 ∧ free.length < n)
          ∨ (recKind s e.index ≠ 0 ∧ ∃ o ∈ s.exec.soli, o.kind = recKind s e.index) → exec (.queueDispatch ⟨true, ups⟩) s = .next s)

/-- An empty queue dispatches nothing and reads nothing; where the reads for a head find an uncorrectable error in ROM or OTP, both queues are emptied,
no entry of the bar follows and slot 444 is to choose Tacet. -/
def Sys2Proof.Part.NoDispatch : Prop :=
  ∀ (s : State) (soli : Bool) (ups : List Upset),
    ((if soli then s.exec.q1 else s.exec.q0) = [] → exec (.queueDispatch ⟨soli, ups⟩) s = .next s)
      ∧ ((if soli then s.exec.q1 else s.exec.q0) ≠ [] → romFailures ups ≠ [] →
        ∃ t, exec (.queueDispatch ⟨soli, ups⟩) s = .next t ∧ Part.StoppedByRead t)

/-- How Q0 and Q1 dispatch. (Which commands find errors in ROM and OTP, log entry 74.) -/
def Obligations.Dispatch : Prop := Part.DispatchTutti ∧ Part.DispatchSoli ∧ Part.NoDispatch

/-- A Tutti descriptor completes: it leaves the array, its post reaches its cue and no other, and memory holds what the descriptor wrote. After an
overrun it does not complete. -/
def Sys2Proof.Part.TuttiCompletes : Prop :=
  (∀ (s : State) (i : Nat) (rest : List Nat) (ups : List Upset), s.exec.tutti = i :: rest → s.exec.abandon = false →
    (opUpsets s ups).2 = false →
    ∃ t, exec (.tuttiDescriptorComplete ups) s = .next t ∧ t.exec.tutti = rest ∧ t.ram = (runDescriptor (opUpsets s ups).1 i).s.ram
      ∧ (∀ j : Fin 128, (t.exec.cues[j]).toNat =
          if j.val = (syncAt s (descOff s i)).postCue then min ((s.exec.cues[j]).toNat + (syncAt s (descOff s i)).postInc) 65535
          else (s.exec.cues[j]).toNat)
      ∧ t.exec.soli = s.exec.soli ∧ t.exec.sections = s.exec.sections ∧ t.port = s.port ∧ t.nvm = s.nvm)
    ∧ (∀ s : State, (opUpsets s []).2 = false)
    ∧ ∀ (s : State) (ups : List Upset), s.exec.abandon = true → exec (.tuttiDescriptorComplete ups) s = .next s

/-- A kernel completes when each of its sections has ended and no load is outstanding: it posts, and its contexts are free. -/
def Sys2Proof.Part.KernelCompletes : Prop :=
  ∀ (s : State) (k : Nat) (o : SoliOp) (ups : List Upset), s.exec.soli[k]? = some o → o.kind = 0 → s.exec.abandon = false →
    (∀ c ∈ o.ctxs, ∀ x, s.section c = some x → x.ended = true ∧ x.loads = []) →
    ∃ t, exec (.kernelComplete k ups) s = .next t ∧ t.exec.soli = s.exec.soli.filter (fun p => p.id ≠ o.id)
      ∧ (∀ c ∈ o.ctxs, t.section c = none) ∧ (∀ c, c ∉ o.ctxs → t.section c = s.section c)
      ∧ (romFailures ups = [] → ∀ j : Fin 128, (t.exec.cues[j]).toNat =
          if j.val = (syncAt s (recOff s o.index)).postCue then min ((s.exec.cues[j]).toNat + (syncAt s (recOff s o.index)).postInc) 65535
          else (s.exec.cues[j]).toNat)
      ∧ (romFailures ups ≠ [] → Part.StoppedByRead t)
      ∧ t.exec.tutti = s.exec.tutti ∧ t.port = s.port

/-- A crop, sieve or attention job completes: it leaves the engine, memory holds what the helper wrote, and its post reaches its cue. -/
def Sys2Proof.Part.HelpersComplete : Prop :=
  ∀ q ∈ [(Instr.cropJobComplete, 1, runCrop), (Instr.sieveJobComplete, 2, runSieve), (Instr.attentionJobComplete, 3, runAttention)],
    ∀ (s : State) (o : SoliOp) (ups : List Upset), helperJob s q.2.1 = some o → s.exec.abandon = false → (opUpsets s ups).2 = false →
      ∃ t, exec (q.1 ups) s = .next t ∧ t.ram = (q.2.2 (opUpsets s ups).1 (recOff s o.index)).ram ∧ t.exec.soli = s.exec.soli.filter (fun p => p.id ≠ o.id)
        ∧ (∀ j : Fin 128, (t.exec.cues[j]).toNat =
            if j.val = (syncAt s (recOff s o.index)).postCue then min ((s.exec.cues[j]).toNat + (syncAt s (recOff s o.index)).postInc) 65535
            else (s.exec.cues[j]).toNat)
        ∧ t.exec.tutti = s.exec.tutti ∧ t.port = s.port ∧ t.nvm = s.nvm

/-- Tutti descriptors, kernels and helper jobs complete. -/
def Obligations.OperationsComplete : Prop := Part.TuttiCompletes ∧ Part.KernelCompletes ∧ Part.HelpersComplete

/-! ### What the Tutti array and the helpers compute -/

/-- One output element: the sum of products, the input at a tap, rescale and pooling (R158, R161, R165, R168, R170, R171, R173, R178, R187). -/
def Sys2Proof.Part.TuttiElement : Prop :=
  (∀ (s : State) (d : Desc) (bad : List (Nat × Nat)) (cbOff : Nat) (w : Nat × Nat × Nat × Nat) (c oy ox : Nat),
    let g := c / (d.oc / d.groups)
    let n := d.ic / d.groups
    let a := accumulate s d bad cbOff w c oy ox
    a < 2 ^ 31 ∧ -(2 ^ 31) ≤ a ∧ ∃ q : Int, a = q * 2 ^ 32
      + (if d.psumIn then signed 32 (engU s (d.winBase + (((c / 32 * d.oh + oy) * d.ow + ox) * 32 + c % 32) * 4) 4) else 0)
      + ∑ i ∈ Finset.range n, ∑ ky ∈ Finset.range d.kh, ∑ kx ∈ Finset.range d.kw,
          operand s d bad (g * n + i) ((oy * d.sy + ky * d.dy : Nat) - (d.pt : Int)) ((ox * d.sx + kx * d.dx : Nat) - (d.pl : Int))
            * weightAt s d cbOff w ((i * d.kh + ky) * d.kw + kx))
    ∧ (∀ (s : State) (d : Desc) (bad : List (Nat × Nat)) (c : Nat) (y x : Int),
      y < 0 ∨ (d.ih : Int) ≤ y ∨ x < 0 ∨ (d.iw : Int) ≤ x → operand s d bad c y x = 0)
    ∧ (∀ (s : State) (d : Desc) (bad : List (Nat × Nat)) (c y x : Nat), y < d.ih → x < d.iw →
      (d.winFirst ≤ c ∧ c < d.winFirst + d.winN →
        operand s d bad c y x = signed 16 (engU s (d.winBase + ((y * d.iw + x) * 16 + 2 * (c - d.winFirst))) 2))
      ∧ (¬(d.winFirst ≤ c ∧ c < d.winFirst + d.winN) → d.src = 0 →
        operand s d bad c y x = (min 255 ((stavePixel s (if d.plane then .h else .w) bad y x + 2) / 4) : Nat) - (d.izp : Int))
      ∧ (¬(d.winFirst ≤ c ∧ c < d.winFirst + d.winN) → d.src ≠ 0 → d.cmpIn = false →
        operand s d bad c y x = (engRead s (d.inBase + (if d.src = 1 then ((c / 16 * d.ih + y) * d.iw + x) * 16 + c % 16
          else ((c / 32 * d.ih + y) * d.iw + x) * 32 + c % 32))).toNat - (d.izp : Int))
      ∧ (¬(d.winFirst ≤ c ∧ c < d.winFirst + d.winN) → d.src ≠ 0 → d.cmpIn = true →
        operand s d bad c y x = slotCode s (d.inBase + ((c / 32 * d.ih + y) * d.iw + x) * 40) (c % 32) d.izp - (d.izp : Int)))
    ∧ (∀ (acc : Int) (k shift : Nat) (ofs : Int),
      let low := acc - acc % 2 ^ k
      let t := rescale acc k shift ofs - ofs
      2 * |t * 2 ^ shift - low| ≤ 2 ^ shift ∧ (2 * |t * 2 ^ shift - low| = 2 ^ shift → |low| ≤ |t * 2 ^ shift|))
    ∧ (∀ (d : Desc) (t : Int),
      let v := max (-32768) (min t 32767)
      convOut d false t = ⟨(max (d.clo : Int) (min (t + d.ozp) d.chi)).toNat, none,
          decide ((d.chi : Int) < t + d.ozp ∨ (t + d.ozp < d.clo ∧ d.clo ≠ d.ozp))⟩
        ∧ convOut d true t = ⟨(max (d.clo : Int) (min (v + d.ozp) d.chi)).toNat, some v, decide (t < -32768 ∨ 32767 < t)⟩)
    ∧ ∀ (s : State) (d : Desc) (bad : List (Nat × Nat)) (c oy ox : Nat),
      let y (ky : Nat) : Int := (oy * d.sy + ky * d.dy : Nat) - (d.pt : Int)
      let x (kx : Nat) : Int := (ox * d.sx + kx * d.dx : Nat) - (d.pl : Int)
      let inside (ky kx : Nat) : Prop := ky < d.kh ∧ kx < d.kw ∧ 0 ≤ y ky ∧ y ky < d.ih ∧ 0 ≤ x kx ∧ x kx < d.iw
      (d.op = 3 → (∀ ky kx, ¬inside ky kx) → poolOut s d bad c oy ox = convOut d false 0)
        ∧ (d.op = 3 → ∀ ky kx, inside ky kx → (∀ k l, inside k l → operand s d bad c (y k) (x l) ≤ operand s d bad c (y ky) (x kx)) →
            poolOut s d bad c oy ox = convOut d false (operand s d bad c (y ky) (x kx)))
        ∧ ∀ n, d.op = 4 → d.kh * d.kw = 2 ^ n → poolOut s d bad c oy ox = convOut d false
            (rshift (∑ ky ∈ Finset.range d.kh, ∑ kx ∈ Finset.range d.kw, operand s d bad c (y ky) (x kx)) n)

/-- A block column (oy, g, xt) puts each of its elements, as the memory before it gives them, at the offset of its layout: codes, wide values and
partial sums in memory, compressed codes to be held until their slots are written; a skipped column writes nothing (R158, R163, R170, R187, R236). -/
def Sys2Proof.Part.ColumnWritten : Prop :=
  ∀ (d : Desc) (i cbOff k : Nat) (bad : List (Nat × Nat)) (places : List (Nat × (Nat × Nat × Nat × Nat))) (oy g xt : Nat) (r : Run)
    (held : List (Nat × Nat × Nat)),
    let z := blockColumn d i cbOff k bad places oy g xt (r, held)
    let n := d.oc / d.groups
    let last := min (32 * xt + 32) d.ow
    let acc (c ox : Nat) := accumulate r.s d bad cbOff ((places.lookup c).getD (0, 0, 1, 0)) c oy ox
    let out (c ox : Nat) : Out :=
      if 3 ≤ d.op then poolOut r.s d bad c oy ox
      else
        let q := bodyU r.s (d.qOff + 8 + 4 * c) 4
        convOut d (decide (d.woutFirst ≤ c ∧ c < d.woutFirst + d.woutN)) (rescale (acc c ox) k (field q 0 5) (signed 16 (field q 16 16)))
    let size := if d.dst = 1 then (d.oc + 15) / 16 * d.oh * d.ow * 16 else (d.oc + 31) / 32 * d.oh * d.ow * 32
    let kept (p : Nat) : Prop := ramOpen r.s p = true ∧ p / 8 ∉ r.s.ram.bad
    (skips r.s d i oy xt = true → z.1.s = r.s ∧ z.2 = held ∧ z.1.skipped = r.skipped + 1 ∧ z.1.total = r.total ∧ z.1.clipped = r.clipped)
      ∧ (skips r.s d i oy xt = false → r.s.ram.wf = true → oy < d.oh → d.woutN ≤ 8 → 32 * xt < d.ow → g < d.groups →
          z.1.skipped = r.skipped ∧ (d.psumOut = false → z.1.total = r.total + n * (last - 32 * xt))
          ∧ ∀ c ox, g * n ≤ c → c < (g + 1) * n → 32 * xt ≤ ox → ox < last →
            (d.psumOut = true → ∀ b, b < 4 → ∀ p, p = d.outBase + (((c / 32 * d.oh + oy) * d.ow + ox) * 32 + c % 32) * 4 + b → kept p →
              z.1.s.ram.read p = (leBytes 4 (acc c ox % 2 ^ 32).toNat).getD b 0)
            ∧ (d.psumOut = false → d.cmp = true → (ox, c, (out c ox).code) ∈ z.2)
            ∧ (d.psumOut = false → d.cmp = false → ∀ p,
              p = d.outBase + (if d.dst = 1 then ((c / 16 * d.oh + oy) * d.ow + ox) * 16 + c % 16 else ((c / 32 * d.oh + oy) * d.ow + ox) * 32 + c % 32) →
              kept p → (d.woutN = 0 ∨ p < d.woutBase ∨ d.woutBase + d.oh * d.ow * 16 ≤ p) →
              (z.1.s.ram.read p).toNat = (out c ox).code % 256)
            ∧ (d.psumOut = false → ∀ v, (out c ox).wide = some v → ∀ b, b < 2 → ∀ p,
              p = d.woutBase + ((oy * d.ow + ox) * 16 + 2 * (c - d.woutFirst)) + b → kept p →
              (d.cmp = true ∨ p < d.outBase ∨ d.outBase + size ≤ p) → z.1.s.ram.read p = (leBytes 2 (v % 65536).toNat).getD b 0))

/-- A compressed slot reads back as the codes written, with what it held before for the channels not written and OZP beyond OC (R169). -/
def Sys2Proof.Part.SlotReadsBack : Prop :=
  ∀ (s : State) (d : Desc) (cb oy ox : Nat) (codes : List (Nat × Nat)), s.ram.wf = true → codes ≠ [] → d.ozp < 256 → (∀ q ∈ codes, q.2 < 256) →
    let a := d.outBase + ((cb * d.oh + oy) * d.ow + ox) * 40
    (∀ j, j < 36 → ramOpen s (a + j) = true ∧ (a + j) / 8 ∉ s.ram.bad) →
    ∀ i, i < 32 → slotCode (writeSlot s d cb oy ox codes) a i d.ozp =
      if 32 * cb + i < d.oc then (codes.lookup (32 * cb + i)).getD (slotCode s a i d.ozp) else d.ozp

/-- With CMP the slots of a block are written for a column tile when the last group that has channels in the block has been handled for it: each slot
of the tile reads back with the codes held for it, every other slot stays (R158, R169, R170). -/
def Sys2Proof.Part.SlotsWritten : Prop :=
  ∀ (d : Desc) (oy g xt : Nat) (r : Run) (held : List (Nat × Nat × Nat)),
    (d.cmp = false → writeSlots d oy g xt (r, held) = r)
      ∧ (d.cmp = true → r.s.ram.wf = true → d.ozp < 256 → (∀ h ∈ held, h.2.2 < 256) → oy < d.oh → ∀ cb ox, cb < (d.oc + 31) / 32 → ox < d.ow →
        let t := (writeSlots d oy g xt (r, held)).s
        let a := d.outBase + ((cb * d.oh + oy) * d.ow + ox) * 40
        let codes := (held.filter fun h => h.1 = ox && h.2.1 / 32 = cb).map (·.2)
        let goes := min (32 * cb + 31) (d.oc - 1) / (d.oc / d.groups) = g ∧ 32 * xt ≤ ox ∧ ox < 32 * xt + 32 ∧ codes ≠ []
        (goes → (∀ j, j < 36 → ramOpen r.s (a + j) = true ∧ (a + j) / 8 ∉ r.s.ram.bad) → ∀ i, i < 32 →
            slotCode t a i d.ozp = if 32 * cb + i < d.oc then (codes.lookup (32 * cb + i)).getD (slotCode r.s a i d.ozp) else d.ozp)
          ∧ (¬goes → ∀ p, a ≤ p → p < a + 40 → t.ram.read p = r.s.ram.read p))

/-- A descriptor changes no byte outside its output tensor and its wide side tensor (R163, R170). -/
def Sys2Proof.Part.DescriptorFootprint : Prop :=
  ∀ (s : State) (i p : Nat), s.ram.wf = true →
    let d := descAt s i
    let size :=
      if d.psumOut then (d.oc + 31) / 32 * d.oh * d.ow * 128
      else if d.cmp then (d.oc + 31) / 32 * d.oh * d.ow * 40
      else if d.dst = 1 then (d.oc + 15) / 16 * d.oh * d.ow * 16
      else (d.oc + 31) / 32 * d.oh * d.ow * 32
    d.oy0 + d.oyn ≤ d.oh → d.woutN ≤ 8 → (p < d.outBase ∨ d.outBase + size ≤ p) →
    (d.woutN = 0 ∨ p < d.woutBase ∨ d.woutBase + d.oh * d.ow * 16 ≤ p) → (runDescriptor s i).s.ram.read p = s.ram.read p

/-- What a Tutti descriptor computes and where it writes it. (That pooling ignores PSUM_IN is log entry 89.) -/
def Obligations.TuttiContent : Prop :=
  Part.TuttiElement ∧ Part.ColumnWritten ∧ Part.SlotReadsBack ∧ Part.SlotsWritten ∧ Part.DescriptorFootprint

/-- Where a channel's weights lie (R164, R181): tile number, offset, rows of the tile and row, by group, then by narrow tile of at most 32 channels, the
wide tile last; a step of a tile is one byte for each row, or one index for each row, filled up to a whole byte. -/
def Sys2Proof.Part.WeightPlaces : Prop :=
  ∀ (d : Desc) (c : Nat), 0 < d.groups → d.oc % d.groups = 0 → c < d.oc → (d.woutN ≠ 0 → d.groups = 1 ∧ d.woutFirst + d.woutN ≤ d.oc) →
    let n := d.oc / d.groups
    let narrow (k : Nat) : Bool := !(decide (d.woutFirst ≤ k) && decide (k < d.woutFirst + d.woutN))
    let m (g : Nat) := ((List.range d.oc).filter fun k => k / n = g && narrow k).length
    let step (rows : Nat) := (rows * (if d.wfmt = 0 then 8 else d.wfmt + 1) + 7) / 8
    let steps := d.ic / d.groups * d.kh * d.kw
    let tiles (g : Nat) := ∑ h ∈ Finset.range g, (m h + 31) / 32
    let bytes (g : Nat) := ∑ h ∈ Finset.range g, steps * (m h / 32 * step 32 + if m h % 32 = 0 then 0 else step (m h % 32))
    let before := ((List.range c).filter fun k => k / n = c / n && narrow k).length
    placeWeights d c (tilesOf d) 0 0 =
      if narrow c then
        (tiles (c / n) + before / 32, bytes (c / n) + steps * (before / 32 * step 32), min 32 (m (c / n) - before / 32 * 32), before % 32)
      else (tiles d.groups, bytes d.groups, d.woutN, c - d.woutFirst)

/-- The weight at reduction index r (R164, R180, R181): a signed byte of its step, or the signed codebook entry that the row's index names, the indices
packed from bit 0 of the step's first byte on, the codebook by tile and by group of CBG indices. -/
def Sys2Proof.Part.WeightValues : Prop :=
  ∀ (s : State) (d : Desc) (cbOff tile off rows j r : Nat), j < rows →
    (d.wfmt = 0 → weightAt s d cbOff (tile, off, rows, j) r = (bodyByte s (d.wOff + off + r * rows + j)).toInt)
      ∧ (d.wfmt ≠ 0 → ∃ v, v < 2 ^ (d.wfmt + 1)
          ∧ (∀ q, q < d.wfmt + 1 → v.testBit q =
              (bodyByte s (d.wOff + off + r * ((rows * (d.wfmt + 1) + 7) / 8) + (j * (d.wfmt + 1) + q) / 8)).getLsbD ((j * (d.wfmt + 1) + q) % 8))
          ∧ (let cbg := 32 * 2 ^ d.cbg
             weightAt s d cbOff (tile, off, rows, j) r = (bodyByte s
               (cbOff + 16 * (tile * ((d.ic / d.groups * d.kh * d.kw + cbg - 1) / cbg) + r / cbg) + v)).toInt))

/-- The order of a descriptor's block columns and slots (R158, R169), with the truncation of its effective level: e - 7 bits from e = 8 on, e the smaller
of RUBATO in the bar-context word and RLIM (R178, R228). -/
def Sys2Proof.Part.DescriptorOrder : Prop :=
  ∀ (s : State) (i : Nat),
    let d := descAt s i
    let e := min (field s.exec.ctx.toNat 4 4) d.rlim
    let bad := if d.src = 0 then defects s (if d.plane then .h else .w) else []
    let places := (List.range d.oc).map fun c => (c, placeWeights d c (tilesOf d) 0 0)
    let column (oy : Nat) (st : Run × List (Nat × Nat × Nat)) (q : Nat × Nat) :=
      let u := blockColumn d i (bodyU s (d.qOff + 4) 4) (if 8 ≤ e then e - 7 else 0) bad places oy q.1 q.2 st
      (writeSlots d oy q.1 q.2 u, u.2)
    let order := (List.range d.groups).flatMap fun g => (List.range ((d.ow + 31) / 32)).map fun xt => (g, xt)
    runDescriptor s i = (List.range d.oyn).foldl (fun r k => (order.foldl (column (d.oy0 + k)) (r, [])).1) ⟨s, 0, 0, 0⟩

/-- The skip decision (R233 to R236): the first dependent entry that names the descriptor, in a bar with EXACT 0, at a level of 1 or more, with no refresh
due, and every position of the clipped footprint in a tile whose sum D is below T · N. -/
def Sys2Proof.Part.SkipDecision : Prop :=
  ∀ (s : State) (d : Desc) (i oy xt : Nat),
    let e := min (field s.exec.ctx.toNat 4 4) d.rlim
    let u (k o n : Nat) := rprU s s.st (16 + 8 * k + o) n
    let size := rprU s s.st 4 4
    let ww := field size 0 10
    let wh := field size 10 10
    let wc := field size 20 10 + 1
    let edge (k o : Nat) : Int := (BitVec.ofNat 8 (u k o 1)).toInt
    skips s d i oy xt = true ↔ s.exec.ctx.getLsbD 3 = false ∧ 1 ≤ e ∧ (s.exec.r + oy + xt) % 16 ≠ 0
      ∧ ∃ k, k < field (rprU s s.st 10 1) 0 7 ∧ u k 0 2 = i ∧ (∀ j, j < k → u j 0 2 ≠ i)
        ∧ ∀ y x : Nat, y < wh → x < ww →
          ((u k 2 1 % 16 * oy : Nat) : Int) + edge k 4 ≤ y → (y : Int) ≤ (u k 2 1 % 16 * oy : Nat) + edge k 5 →
          ((u k 2 1 / 16 * (32 * xt) : Nat) : Int) + edge k 6 ≤ x → (x : Int) ≤ (u k 2 1 / 16 * min (32 * xt + 31) (d.ow - 1) : Nat) + edge k 7 →
          s.exec.tiles.getD (y / 16 * ((ww + 15) / 16) + x / 16) 0 <
            (if e = 1 then 1 else if e = 2 then 2 else 4) * (min 16 (wh - y / 16 * 16) * min 16 (ww - x / 16 * 16) * wc)

/-- What a descriptor takes for its block columns: weights, order, truncation, and whether a column is skipped. -/
def Obligations.TuttiChoices : Prop := Part.WeightPlaces ∧ Part.WeightValues ∧ Part.DescriptorOrder ∧ Part.SkipDecision

/-- A crop job writes, for every box, each output element as four neighbours weighted in 1/256 of a column and row, 0 in the padding channels, and
nothing else (R209 to R211). -/
def Sys2Proof.Part.CropWrites : Prop :=
  ∀ (s : State) (o : Nat), s.ram.wf = true →
    let w (k : Nat) := bodyU s (o + k) 4
    let lay := field (w 12) 11 2
    let ow := field (w 12) 13 6 + 1
    let oh := field (w 12) 19 6 + 1
    let iw := field (w 28) 0 10
    let ih := field (w 28) 10 10
    let ic := field (w 28) 20 10 + 1
    let count := min 32 (field (engU s (w 20) 4) 0 6)
    let blocks := if lay = 1 then (ic + 15) / 16 * 16 else (ic + 31) / 32 * 32
    let off (h w c y x : Nat) := if lay = 1 then ((c / 16 * h + y) * w + x) * 16 + c % 16 else ((c / 32 * h + y) * w + x) * 32 + c % 32
    (∀ b oy ox c, b < count → oy < oh → ox < ow → c < blocks → ∀ p, p = w 24 + b * (blocks * oh * ow) + off oh ow c oy ox →
      ramOpen s p = true → p / 8 ∉ s.ram.bad →
      let e (k : Nat) : Int := engU s (w 20 + 4 + 8 * b + 2 * k) 2
      let u := roundDiv (8 * (2 * ow * e 0 + (e 2 - e 0) * (2 * ox + 1))) ow - 128
      let v := roundDiv (8 * (2 * oh * e 1 + (e 3 - e 1) * (2 * oy + 1))) oh - 128
      let fx := u % 256
      let fy := v % 256
      let a (r k : Int) : Int :=
        (engRead s (w 16 + off ih iw c (max 0 (min (v / 256 + r) ((ih : Int) - 1))).toNat (max 0 (min (u / 256 + k) ((iw : Int) - 1))).toNat)).toNat
      (((runCrop s o).ram.read p).toNat : Int) = if c < ic then
          rshift ((256 - fx) * (256 - fy) * a 0 0 + fx * (256 - fy) * a 0 1 + (256 - fx) * fy * a 1 0 + fx * fy * a 1 1) 16
        else 0)
      ∧ ∀ p, p < w 24 ∨ w 24 + count * (blocks * oh * ow) ≤ p → (runCrop s o).ram.read p = s.ram.read p

/-- The sieve keeps boxes in order, at most the limit, no two of them beyond the overlap bound, and drops no candidate without a reason
(R216). -/
def Sys2Proof.Part.SieveKeepsBest : Prop :=
  ∀ (iou limit : Nat) (cs : List Candidate), 0 < limit →
    ∃ l, keepBoxes iou limit cs [] = l ∧ l.length ≤ limit ∧ l.Sublist cs ∧ l.Pairwise (fun a b => overlapOk iou b a = true)
      ∧ (l.length < limit → ∀ c ∈ cs, c ∈ l ∨ ∃ k ∈ l, overlapOk iou c k = false)

/-- The sieve's order, its overlap test and the decoding of an anchor (R214 to R216). -/
def Sys2Proof.Part.SieveRules : Prop :=
  (∀ l : List (Nat × Nat), (∀ q ∈ l, q.1 < 256) → (l.map (·.2)).Pairwise (· < ·) →
    ∃ m : List (Nat × Nat), orderAnchors l = m.map (·.2) ∧ m.Perm l ∧ m.Pairwise fun a b => b.1 < a.1 ∨ (b.1 = a.1 ∧ a.2 < b.2))
    ∧ (∀ (iou : Nat) (a b : Candidate),
      let i := max 0 (min (a.x0 + a.w) (b.x0 + b.w) - max a.x0 b.x0) * max 0 (min (a.y0 + a.h) (b.y0 + b.h) - max a.y0 b.y0)
      overlapOk iou a b = true ↔ 64 * i ≤ iou * (a.w * a.h + b.w * b.h - i))
    ∧ ∀ (s : State) (inBase ancOff n a : Nat),
      let x := decodeAnchor s inBase ancOff n a
      let e (k : Nat) : Int := bodyU s (ancOff + 8 * a + 2 * k) 2
      let d (k : Nat) : Int := signed 8 (engRead s (inBase + 16 * a + k)).toNat
      let t (v : Int) : Int := bodyU s (ancOff + 8 * n + 2 * (v + 128).toNat) 2
      let lim (v : Int) := max 0 (min v 65535)
      x.w = lim (rshift (e 2 * t (d 3)) 12) ∧ x.h = lim (rshift (e 3 * t (d 4)) 12)
        ∧ x.x0 = lim (e 0 + rshift (d 1 * e 2) 7) - rshift x.w 1 ∧ x.y0 = lim (e 1 + rshift (d 2 * e 3) 7) - rshift x.h 1
        ∧ x.score = (engRead s (inBase + 16 * a)).toNat ∧ x.anchor = a

/-- A sieve job writes its output block: the counts, the kept boxes' corners, their scores and anchors, and nothing else (R215, R217). -/
def Sys2Proof.Part.SieveWrites : Prop :=
  ∀ (s : State) (o : Nat), s.ram.wf = true →
    let w (k : Nat) := bodyU s (o + k) 4
    let n := field (w 12) 11 14 + 1
    let cands := ((List.range n).map fun a => ((engRead s (w 16 + 16 * a)).toNat, a)).filter fun p => field (w 28) 0 8 ≤ p.1
    let kept := keepBoxes (field (w 12) 25 7) (field (w 28) 8 5 + 1) (((orderAnchors cands).take 1024).map (decodeAnchor s (w 16) (w 24) n)) []
    let edge (v : Int) := leBytes 2 (max 0 (min v 65535)).toNat
    let boxes := leBytes 4 (kept.length + 64 * min 1024 cands.length + 131072 * (cands.length - 1024))
      ++ kept.flatMap fun c => edge c.x0 ++ edge c.y0 ++ edge (c.x0 + c.w) ++ edge (c.y0 + c.h)
    let scores := kept.flatMap fun c => leBytes 4 (c.score + 256 * c.anchor)
    (∀ p, ramOpen s p = true → p / 8 ∉ s.ram.bad →
      (w 20 ≤ p → p < w 20 + boxes.length → (runSieve s o).ram.read p = boxes.getD (p - w 20) 0)
        ∧ (w 20 + 260 ≤ p → p < w 20 + 260 + scores.length → (runSieve s o).ram.read p = scores.getD (p - (w 20 + 260)) 0))
      ∧ ∀ p, ¬(w 20 ≤ p ∧ p < w 20 + boxes.length) → ¬(w 20 + 260 ≤ p ∧ p < w 20 + 260 + scores.length) →
          (runSieve s o).ram.read p = s.ram.read p

/-- Dynamic groups and the value codebook: the smallest shift that fits, the codes under it, the nearest entry (R184, R186). -/
def Sys2Proof.Part.DynamicGroups : Prop :=
  (∀ vs : List Int, (∀ v ∈ vs, v.natAbs ≤ 2 ^ 31) →
    -6 ≤ groupShift vs ∧ groupShift vs ≤ 25 ∧ (∀ v ∈ vs, 64 * v.natAbs ≤ 127 * 2 ^ (groupShift vs + 6).toNat)
      ∧ ∀ k : Int, -6 ≤ k → k < groupShift vs → ∃ v ∈ vs, 127 * 2 ^ (k + 6).toNat < 64 * v.natAbs)
    ∧ (∀ sh v : Int, groupCode sh v = max (-127) (min (if 0 ≤ sh then rshift v sh.toNat else v * 2 ^ (-sh).toNat) 127))
    ∧ ∀ (cb : List Int) (c : Int), let b := nearestIndex cb c
      b < 16 ∧ (∀ i, i < 16 → (c - cb.getD b 0).natAbs ≤ (c - cb.getD i 0).natAbs)
        ∧ ∀ i, i < b → (c - cb.getD b 0).natAbs < (c - cb.getD i 0).natAbs

/-- The attention helper's store write and its positions (R220 to R222). -/
def Sys2Proof.Part.AttentionStore : Prop :=
  (∀ (s : State) (a : Attention), s.ram.wf = true →
    let base := a.store + s.aon.bar.toNat % 64 * (8 + a.nt * (16 + a.dk + a.dv / 2))
    let key (i : Nat) := sourceValues s (a.src + 4 * (a.nq * a.dk) + 4 * (i * a.dk)) a.dk
    let val (i : Nat) := sourceValues s (a.src + 4 * (a.nq * a.dk) + 4 * (a.nt * a.dk) + 4 * (i * a.dv)) a.dv
    let index (i j : Nat) := nearestIndex (codebookOf s a) (groupCode (groupShift (val i)) ((val i).getD j 0))
    let bytes : List Byte := leBytes 8 (s.aon.bar.toNat + 65536 * (a.nt - 1) + 2097152)
      ++ (List.range a.nt).flatMap (fun i => BitVec.ofInt 8 (groupShift (key i)) :: List.replicate 7 0
        ++ (key i).map fun v => BitVec.ofInt 8 (groupCode (groupShift (key i)) v))
      ++ (List.range a.nt).flatMap fun i => BitVec.ofInt 8 (groupShift (val i)) :: List.replicate 7 0
        ++ (List.range (a.dv / 2)).map fun j => BitVec.ofNat 8 (index i (2 * j) + 16 * index i (2 * j + 1))
    (∀ j, j < bytes.length → ramOpen s (base + j) = true → (base + j) / 8 ∉ s.ram.bad → (writeStore s a).ram.read (base + j) = bytes.getD j 0)
      ∧ ∀ p, p < base ∨ base + bytes.length ≤ p → (writeStore s a).ram.read p = s.ram.read p)
    ∧ ∀ (s : State) (a : Attention) (p : Position), p ∈ positions s a ↔
      let h := engU s (a.store + p.slot * (8 + a.nt * (16 + a.dk + a.dv / 2))) 8
      p.slot < 64 ∧ p.token < a.nt ∧ bitAt h 21 = true ∧ field h 16 5 = a.nt - 1 ∧ p.age ≤ 63
        ∧ p.age = (s.aon.bar.toNat + 65536 - field h 0 16) % 65536

/-- One query: rests by age and weakness, logits, softmax weights from the EXP table and the codes (R223 to R225). -/
def Sys2Proof.Part.Attends : Prop :=
  (∀ e, restLimits e = if e ≤ 3 then none else if e = 4 then some (48, 2048) else if e = 5 then some (32, 1792)
      else if e = 6 then some (24, 1536) else some (16, 1280))
    ∧ (∀ (s : State) (a : Attention) (k : Nat) (sq : Int) (q : List Int) (p : Position),
      let key := a.store + p.slot * (8 + a.nt * (16 + a.dk + a.dv / 2)) + 8 + p.token * (8 + a.dk)
      let d := ∑ j ∈ Finset.range a.dk, q.getD j 0 * signed 8 (engRead s (key + 8 + j)).toNat
      let n := sq + signed 8 (engRead s key).toNat + a.lsh + 8
      let l := if 0 ≤ n then (d - d % 2 ^ k) * 2 ^ n.toNat else rshift (d - d % 2 ^ k) (-n).toNat
      logit s a k sq q p = max (-(2 ^ 24)) (min l (2 ^ 24)))
    ∧ ∀ (s : State) (a : Attention) (ps : List Position) (cb : List Int) (qi : Nat),
      let e := level s a.rlim
      let vs := sourceValues s (a.src + 4 * (qi * a.dk)) a.dk
      let l (p : Position) := logit s a (if 8 ≤ e then e - 7 else 0) (groupShift vs) (vs.map (groupCode (groupShift vs))) p
      let near := ps.filter fun p => (restLimits e).all fun h => p.age ≤ h.1
      (near = [] → attend s a ps cb qi = (none, ps.length, 0))
        ∧ (near ≠ [] → ∃ (top : Int) (codes : List Nat) (big : Int),
          let kept := near.filter fun p => (restLimits e).all fun h => top - h.2 ≤ l p
          let w (p : Position) : Nat := (expTable (BitVec.ofInt 32 (max (-4096) (l p - top)))).toNat
          let value (p : Position) := a.store + p.slot * (8 + a.nt * (16 + a.dk + a.dv / 2)) + 8 + a.nt * (8 + a.dk) + p.token * (8 + a.dv / 2)
          let sv (p : Position) := signed 8 (engRead s (value p)).toNat
          attend s a ps cb qi = (some codes, ps.length - near.length, near.length - kept.length)
            ∧ (∃ p ∈ near, l p = top) ∧ (∀ p ∈ near, l p ≤ top)
            ∧ (∃ p ∈ kept, w p ≠ 0 ∧ sv p = big) ∧ (∀ p ∈ kept, w p ≠ 0 → sv p ≤ big) ∧ codes.length = a.dv
            ∧ ∀ j, j < a.dv →
              let entry (p : Position) := cb.getD (field (engRead s (value p + 8 + j / 2)).toNat (4 * (j % 2)) 4) 0
              let sum := ((kept.filter fun p => w p ≠ 0).map fun p => rshift (w p * entry p) (big - sv p).toNat).sum
              let o := roundDiv sum (kept.map w).sum
              let m := big - a.oexp
              codes.getD j 0 = (max 0 (min ((if 0 ≤ m then o * 2 ^ m.toNat else rshift o (-m).toNat) + a.ozp) 255)).toNat)

/-- An attention job: the store write, then every query over the positions as memory then stands; its codes as a C32 tensor, and the rests
counted (R221, R225, R241). -/
def Sys2Proof.Part.AttentionWrites : Prop :=
  ∀ (s : State) (o : Nat), s.ram.wf = true →
    let a := attentionAt s o
    let u := if a.write then writeStore s a else s
    let r (qi : Nat) := attend u a (positions u a) (codebookOf u a) qi
    let t := runAttention s o
    (∀ qi j codes, qi < a.nq → j < a.dv → (r qi).1 = some codes → ∀ p, p = a.out + ((j / 32 * a.nq + qi) * 32 + j % 32) → ramOpen s p = true →
      p / 8 ∉ u.ram.bad → (t.ram.read p).toNat = codes.getD j 0 % 256)
      ∧ (∀ p, p < a.out ∨ a.out + (a.dv + 31) / 32 * a.nq * 32 ≤ p → t.ram.read p = u.ram.read p)
      ∧ t.exec.restAge = min (s.exec.restAge + ((List.range a.nq).map fun qi => (r qi).2.1).sum) (2 ^ 32 - 1)
      ∧ t.exec.restWeak = min (s.exec.restWeak + ((List.range a.nq).map fun qi => (r qi).2.2).sum) (2 ^ 32 - 1)

/-- What the crop unit, the sieve and the attention helper compute and write. (With no position to attend, a query's codes are free, log entry 4; a job
reads all that it reads before it writes, log entry 12; the rest counters count one per query and position, log entry 27.) -/
def Obligations.HelperResults : Prop :=
  Part.CropWrites ∧ Part.SieveKeepsBest ∧ Part.SieveRules ∧ Part.SieveWrites ∧ Part.DynamicGroups ∧ Part.AttentionStore ∧ Part.Attends
    ∧ Part.AttentionWrites

/-- Room in a full event ring: the oldest record is dropped, or the second oldest when the oldest is partly read; the drop is counted and the next
record, which waits behind all others (R274), carries DROP. -/
def Obligations.RingFull : Prop :=
  (∀ (s : State) (a b : RingEntry) (r : List RingEntry), s.port.ring = a :: b :: r → 64 ≤ s.port.ring.length →
    (makeRoom s).port.ring = (if a.st = .partly then a :: r else b :: r) ∧ (makeRoom s).aon.drops = min (s.aon.drops + 1) 65535
      ∧ (makeRoom s).aon.dropFlag = true)
    ∧ (∀ s : State, s.port.ring.length < 64 → makeRoom s = s)
    ∧ ∀ (s : State) (type flags src : Nat) (payload : List Byte),
      ∃ e, (pushQ2 s type flags src payload).port.ring = s.port.ring ++ [e] ∧ e.st = .enqueued
        ∧ (e.data[3]).getLsbD 7 = s.aon.dropFlag ∧ (pushQ2 s type flags src payload).aon.dropFlag = false
        ∧ crc16 (e.data.toList.take 30) = leNat (e.data.toList.drop 30)

/-! ### Touch and haptics -/

/-- A scan starts in the mode that charger state, noise count and injection give, with the SENSE code of its start; noise mode is entered with a
trip of detector 14. -/
def Sys2Proof.Part.ScanStarts : Prop :=
  ∀ (s : State) (chg : Bool), s.running = true → s.fermata = none → s.touch.on = true → s.touch.scanning = false →
    ∃ t, exec (.scanStart chg) s = .next t
      ∧ t.touch = { s.touch with
          scanning := true, chg := chg, scanNoise := t.touch.noise, scanSense := s.codes.sense.eff, noise := t.touch.noise }
      ∧ (s.touch.noise = false → s.inject 14 = false →
          t.touch.noise = (chg || decide (4 ≤ (s.touch.noisy.filter id).length)) ∧ (t.touch.noise = true → (t.det 14).pending = true))
      ∧ (s.touch.noise = true → s.inject 14 = false → t.touch.noise = (chg || decide (s.touch.quiet < 64)))
      ∧ (s.inject 14 = true → t.touch.noise = true)
      ∧ t.exec = s.exec ∧ t.ram = s.ram ∧ t.cond = s.cond ∧ t.port = s.port

/-- A scan completes: in the first scan after a start each measured node's baseline is its measurement, no node is touched, and one that differs from
its factory reference by more than a quarter is suspect; CONTACT says that some node is touched; nothing outside the touch block changes. -/
def Sys2Proof.Part.ScanCompletes : Prop :=
  ∀ (s : State) (chips listen : List (List Int)) (ups : List Upset), (Instr.scanComplete chips ⟨listen, ups⟩).wf = true → s.running = true →
    s.touch.scanning = true → chips.length = (if s.touch.scanNoise then 16 else 8) → romFailures ups = [] →
    ∃ t, exec (.scanComplete chips ⟨listen, ups⟩) s = .next t ∧ t = { s with touch := t.touch } ∧ t.touch.scanning = false ∧ t.touch.fresh = false
      ∧ t.touch.done = true ∧ t.touch.noisy.length ≤ 8 ∧ t.touch.noise = s.touch.noise
      ∧ (t.touch.summary.getLsbD 0 = true ↔ ∃ n : Fin 128, t.touch.nodes[n].touched = true)
      ∧ (t.touch.summary.getLsbD 18 = s.touch.scanNoise)
      ∧ (t.touch.summary.getLsbD 19 = true ↔ ∃ n : Fin 128, t.touch.nodes[n].suspect = true)
      ∧ (∀ n : Fin 128, t.touch.nodes[n].touched = true → rxEnabled s (n.val % 16) = true)
      ∧ (s.touch.fresh = true → ∀ n : Fin 128, t.touch.nodes[n].touched = false
          ∧ (rxEnabled s (n.val % 16) = true →
            let m := measurement s.touch.scanNoise chips (n.val / 16) (n.val % 16)
            let r : Int := leNat [s.nvm.cal (0xF90 + 2 * n.val), s.nvm.cal (0xF91 + 2 * n.val)]
            t.touch.nodes[n].base = 65536 * m ∧ (t.touch.nodes[n].suspect = true ↔ r ≠ 0 ∧ r < 4 * |m - r|)))

/-- The nodes after a scan that is not the first of a start: touched, baseline, anti-touch and suspect mark, with the threshold of the scan's SENSE
code, doubled in noise mode (R247 to R250). A node that the scan does not measure has no counts of consecutive scans. -/
def Sys2Proof.Part.NodeRules : Prop :=
  ∀ (s : State) (chips listen : List (List Int)) (ups : List Upset), (Instr.scanComplete chips ⟨listen, ups⟩).wf = true → s.running = true →
    s.touch.scanning = true → chips.length = (if s.touch.scanNoise then 16 else 8) → s.touch.fresh = false → romFailures ups = [] →
    ∃ t, exec (.scanComplete chips ⟨listen, ups⟩) s = .next t ∧ ∀ n : Fin 128,
      let th : Int := 80 * (1 + s.touch.scanSense.toNat) * (if s.touch.scanNoise then 2 else 1)
      let m (k : Fin 128) : Int := measurement s.touch.scanNoise chips (k.val / 16) (k.val % 16)
      let d (k : Fin 128) : Int := if rxEnabled s (k.val % 16) then s.touch.nodes[k].base / 65536 - m k else 0
      let near (k : Fin 128) : Prop := k.val / 16 ≤ n.val / 16 + 1 ∧ n.val / 16 ≤ k.val / 16 + 1 ∧ k.val % 16 ≤ n.val % 16 + 1 ∧ n.val % 16 ≤ k.val % 16 + 1
      let anti (k : Fin 128) : Prop := rxEnabled s (k.val % 16) = true ∧ d k ≤ -(roundDiv th 2)
      let fires (k : Fin 128) : Prop := anti k ∧ 7 ≤ s.touch.nodes[k].anti
      let x := s.touch.nodes[n]
      let y := t.touch.nodes[n]
      let steady : Prop := x.runLen ≠ 0 ∧ 4 * |m n - x.runM0| ≤ th
      let run := if 4 * |m n - x.runM0| ≤ th then x.runLen + 1 else 1
      let released : Prop := x.suspect = true ∧ (anti n ∨ 2 * touchRate s ≤ run)
      (rxEnabled s (n.val % 16) = false → y = { x with touched := false, anti := 0, runLen := 0 })
        ∧ (rxEnabled s (n.val % 16) = true →
          (y.touched = true ↔ txEnabled s (n.val / 16) = true ∧ x.suspect = false ∧ th ≤ d n)
          ∧ (y.suspect = true ↔ x.suspect = true ∧ ¬released)
          ∧ (released ∨ fires n ∨ (d n < 0 ∧ ∃ k, near k ∧ fires k) → y.base = 65536 * m n)
          ∧ (¬(released ∨ fires n ∨ (d n < 0 ∧ ∃ k, near k ∧ fires k)) →
              ((∃ k, near k ∧ th ≤ d k) → y.base = x.base)
              ∧ ((∀ k, near k → d k < th) →
                  y.base = x.base + rshift ((65536 * m n - x.base) * roundDiv 65536 (4 * touchRate s)) 16))
          ∧ (fires n → y.anti = 0) ∧ (¬anti n → y.anti = 0) ∧ (anti n → ¬fires n → y.anti = min (x.anti + 1) 8)
          ∧ (x.suspect = true → ¬released → y.runLen = run ∧ y.runM0 = if steady then x.runM0 else m n)
          ∧ y.meas = m n)

/-- POS and KEY of a scan with contact, from its strongest node (R253), and what the summary word keeps (R255, Table 13-3). -/
def Sys2Proof.Part.PositionAndKey : Prop :=
  ∀ (s : State) (chips listen : List (List Int)) (ups : List Upset), (Instr.scanComplete chips ⟨listen, ups⟩).wf = true → s.running = true →
    s.touch.scanning = true → chips.length = (if s.touch.scanNoise then 16 else 8) → romFailures ups = [] →
    ∃ t, exec (.scanComplete chips ⟨listen, ups⟩) s = .next t ∧
      let old := s.touch.summary.toNat
      let new := t.touch.summary.toNat
      let d (k : Nat) : Int := signal s ((List.range 128).map fun n => measurement s.touch.scanNoise chips (n / 16) (n % 16)) k
      let contact : Prop := ∃ n : Fin 128, t.touch.nodes[n].touched = true
      (¬contact → field new 1 4 = 0 ∧ field new 5 8 = field old 5 8)
        ∧ (∀ n : Fin 128, t.touch.nodes[n].touched = true →
          (∀ k : Fin 128, t.touch.nodes[k].touched = true → d k.val < d n.val ∨ (d k.val = d n.val ∧ n ≤ k)) →
          let i := n.val / 16
          let r := n.val % 16
          let side (j : Nat) : Int :=
            if rxEnabled s j = false ∨ (∃ h : 16 * i + j < 128, (s.touch.nodes[16 * i + j]).suspect = true) then 0 else max 0 (d (16 * i + j))
          let lo := if r = 0 then 0 else side (r - 1)
          let hi := if r = 15 then 0 else side (r + 1)
          let p := max 0 (min (16 * (r : Int) + roundDiv (16 * (hi - lo)) (lo + d n.val + hi).toNat) 240)
          let inKey (q : Nat) : Prop :=
            let k := touchKey s q
            bitAt k 14 = true ∧ field k 0 3 ≤ i ∧ i ≤ field k 3 3 ∧ field k 6 4 ≤ r ∧ r ≤ field k 10 4
          (field new 5 8 : Int) = (if touchDir s then 240 - p else p)
            ∧ ((∀ q, q < 8 → ¬inKey q) → field new 1 4 = 0)
            ∧ ∀ q, q < 8 → inKey q → (∀ j, j < q → ¬inKey j) → field new 1 4 = q + 1)
        ∧ ∃ e : Nat, (contact → (t.touch.gesture, e) = s.touch.gesture.contact (touchRate s) (field new 5 8))
          ∧ (¬contact → (t.touch.gesture, e) = s.touch.gesture.free (touchRate s))
          ∧ (e = 0 → field new 13 5 = field old 13 5)
          ∧ (e ≠ 0 → field new 13 3 = e ∧ (bitAt new 16 = true ↔ e = if wakeSelect s then 3 else 2) ∧ (bitAt new 17 = true ↔ field old 13 3 ≠ 0))

/-- The gesture recogniser, scan by scan: with n scans of contact, the travel and the excursion of the episode, and the tap before it
(R254, Table 13-2). -/
def Sys2Proof.Part.Gestures : Prop :=
  (∀ (g : Gesture) (rate : Nat) (pos : Int),
    let n := g.len + 1
    let exc : Int := if g.len = 0 then 0 else max g.exc |pos - g.first|
    let second := if g.len = 0 then g.tapGap.isSome else g.second
    let late : Prop := second = true ∧ ((rate + 3) / 4 < n ∨ 32 ≤ exc)
    let (x, e) := g.contact rate pos
    x.len = n ∧ x.first = (if g.len = 0 then pos else g.first) ∧ x.last = pos ∧ x.exc = exc
      ∧ (late → e = 1 ∧ x.second = false) ∧ (¬late → x.second = second)
      ∧ (¬late → n = (4 * rate + 4) / 5 → exc < 32 → e = 5 ∧ x.held = true)
      ∧ (¬late → ¬(n = (4 * rate + 4) / 5 ∧ exc < 32) → e = 0 ∧ x.held = if g.len = 0 then false else g.held)
      ∧ (g.len = 0 → x.tapGap = none) ∧ (g.len ≠ 0 → x.tapGap = g.tapGap))
    ∧ ∀ (g : Gesture) (rate : Nat),
      let tap : Prop := g.len ≤ (rate + 3) / 4 ∧ g.exc < 32
      let travel := g.last - g.first
      let (x, e) := g.free rate
      (g.len ≠ 0 → x.len = 0 ∧ x.second = false
        ∧ (tap → g.second = true → e = 2) ∧ (tap → g.second = false → e = 0 ∧ x.tapGap = some 0)
        ∧ (¬tap → g.held = true ∨ (4 * rate + 4) / 5 < g.len → e = 0)
        ∧ (¬tap → g.held = false → g.len ≤ (4 * rate + 4) / 5 → e = if 96 ≤ travel then 3 else if travel ≤ -96 then 4 else 0))
      ∧ (g.len = 0 → (∀ k, g.tapGap = some k → (3 * rate + 9) / 10 ≤ k + 1 → e = 1 ∧ x.tapGap = none)
        ∧ (∀ k, g.tapGap = some k → k + 1 < (3 * rate + 9) / 10 → e = 0 ∧ x.tapGap = some (k + 1)) ∧ (g.tapGap = none → e = 0 ∧ x = g))

/-- A scan whose reads of ROM or OTP find an uncorrectable error completes, and stops the bar's entries (R333). -/
def Sys2Proof.Part.ScanStopped : Prop :=
  ∀ (s : State) (chips listen : List (List Int)) (ups : List Upset), (Instr.scanComplete chips ⟨listen, ups⟩).wf = true → s.running = true →
    s.touch.scanning = true → chips.length = (if s.touch.scanNoise then 16 else 8) → romFailures ups ≠ [] →
    ∃ t, exec (.scanComplete chips ⟨listen, ups⟩) s = .next t ∧ Part.StoppedByRead t ∧ t.touch.scanning = false

/-- A touch scan starts and completes, with its nodes, position, key and gestures. (The scan from which the gap of a double tap counts, and a third tap,
that starts afresh; where the steady run of a suspect node starts; what a scan leaves of a node that it does not measure: log entry 28. The reads that
find errors, log entry 74.) -/
def Obligations.TouchScans : Prop :=
  Part.ScanStarts ∧ Part.ScanCompletes ∧ Part.ScanStopped ∧ Part.NodeRules ∧ Part.PositionAndKey ∧ Part.Gestures

/-- An effect begins: an armed one at slot 445, a pending one after a brake; its first half-cycle is positive at LRA_P, lasts 1 / (2 F0) and has no
sense window (R258, R259, R261). The duty is the amplitude against VIN in 1/256, rounded to nearest (log entry 79). -/
def Sys2Proof.Part.EffectStarts : Prop :=
  (∀ a v : Nat, dutyOf a v ≤ 256 ∧ (v ≤ 16 * a → dutyOf a v = 256)
      ∧ (16 * a < v → 2 * |((dutyOf a v * v : Nat) : Int) - (4096 * a : Nat)| ≤ (v : Int)))
    ∧ ∀ (s : State) (e vin : Nat), s.running = true → s.fermata = none →
      (s.accent.state = .armed e ∧ s.metro.slot = 445) ∨ (s.accent.state = .waiting ∧ s.accent.pending = some e) →
      ∃ t, exec (.effectStart vin) s = .next t ∧ t = { s with accent := t.accent }
        ∧ t.accent.state = (if effOverLen s e = 0 then .sustain e 1 else .overdrive e 1)
        ∧ t.accent.bridge = .drive true (dutyOf (if effOverLen s e = 0 then effSusAmp s e else effOverAmp s e) vin) false
        ∧ t.accent.half = 1 / (2 * (140 + (effF0 s e : Rat) / 2)) ∧ t.accent.next = t.accent.half ∧ t.accent.vin = vin ∧ t.accent.cut = false
        ∧ t.accent.pending = if s.accent.state = .waiting then none else s.accent.pending

/-- Half-cycles: they alternate through overdrive and sustain, with a sense window in each later one of a tracking effect; after the last, or with
a trigger pending, comes the brake, in antiphase to the back-EMF and with a sense window in each half-cycle (R258 to R261). -/
def Sys2Proof.Part.HalfCycles : Prop :=
  (∀ (s : State) (e n total vin : Nat) (emf : Bool),
    (s.accent.state = .overdrive e n ∧ total = n) ∨ (s.accent.state = .sustain e n ∧ total = effOverLen s e + n) →
    ∃ t, exec (.halfCycleEnd vin emf) s = .next t ∧ t = { s with accent := t.accent } ∧ t.accent.half = s.accent.next ∧ t.accent.vin = vin ∧
      if s.accent.cut = true ∨ effOverLen s e + effSusLen s e ≤ total then
        t.accent.state = .brake e ∧ t.accent.bridge = .drive (!emf) (dutyOf (effBrakeAmp s e) vin) true
      else if total < effOverLen s e then
        t.accent.state = .overdrive e (total + 1)
          ∧ t.accent.bridge = .drive (decide (total % 2 = 0)) (dutyOf (effOverAmp s e) vin) (effTrack s e)
      else t.accent.state = .sustain e (total - effOverLen s e + 1)
        ∧ t.accent.bridge = .drive (decide (total % 2 = 0)) (dutyOf (effSusAmp s e) vin) (effTrack s e))
    ∧ (∀ (s : State) (e vin : Nat) (emf : Bool), s.accent.state = .brake e →
      ∃ t, exec (.halfCycleEnd vin emf) s = .next t ∧ t = { s with accent := t.accent } ∧ t.accent.state = .brake e
        ∧ t.accent.half = s.accent.next ∧ t.accent.bridge = .drive (!emf) (dutyOf (effBrakeAmp s e) vin) true)
    ∧ ∀ (s : State) (e : Nat) (quiet : Bool), s.accent.state = .brake e →
      exec (.brakeEnd quiet) s = .next { s with accent := { s.accent with
        state := if s.accent.pending.isSome then .waiting else .idle, cut := false, bridge := .off } }

/-- A zero crossing in a sense window sets the length of the next half-cycle of a tracking effect, within 1/520 to 1/280 s, and takes an effect for
which a trigger has come into its brake; where the bridge has no window there is no crossing to detect (R259, R261, log entry 80). -/
def Sys2Proof.Part.ZeroCrossing : Prop :=
  (∀ (s : State) (e n : Nat) (gap : Rat),
    s.accent.state = .overdrive e n ∨ s.accent.state = .sustain e n ∨ s.accent.state = .brake e →
    (∃ p v, s.accent.bridge = .drive p v true) ∨ (∃ v, s.accent.bridge = .antiphase v) →
    ∃ t q, exec (.backEmfZeroCrossing gap) s = .next t ∧ t = { s with accent := t.accent } ∧ 1 / 520 ≤ q ∧ q ≤ 1 / 280
      ∧ (1 / 520 ≤ gap → gap ≤ 1 / 280 → q = gap) ∧ t.accent.next = (if effTrack s e then q else s.accent.next)
      ∧ t.accent.half = s.accent.half ∧ t.accent.pending = s.accent.pending
      ∧ (s.accent.cut = true → t.accent.state = .brake e ∧ t.accent.cut = false
          ∧ t.accent.bridge = .antiphase (dutyOf (effBrakeAmp s e) s.accent.vin))
      ∧ (s.accent.cut = false → t.accent.state = s.accent.state ∧ t.accent.bridge = s.accent.bridge))
    ∧ ∀ (s : State) (gap : Rat), s.accent.bridge = .off ∨ (∃ p v, s.accent.bridge = .drive p v false) →
      exec (.backEmfZeroCrossing gap) s = .next s

/-- The haptic driver. (That a cut effect brakes at once, in antiphase, at the duty of the latest VIN, is log entry 30.) -/
def Obligations.Haptics : Prop := Part.EffectStarts ∧ Part.HalfCycles ∧ Part.ZeroCrossing

/-! ### Duet -/

/-- Link frames: a heartbeat at its slot, with bar number, epoch and digest fragment of its DIGIDX and the oldest acknowledgement due; a BAR frame
at the start of a bar of the leader (R285, R287, R294). -/
def Sys2Proof.Part.LinkFramesSent : Prop :=
  (∀ s : State, Due.heartbeat ∈ s.metro.due → s.inj.newly = false ∨ s.metro.slot ≠ 0 →
    ∃ t f, exec .heartbeatSend s = .next t ∧ t.duet.tx = some f ∧ fType f = 2 ∧ Due.heartbeat ∉ t.metro.due
      ∧ fU f 2 2 = s.aon.bar.toNat ∧ fByte f 5 = s.boot.tempo.toNat + 16 * s.duet.epoch.toNat ∧ fByte f 6 % 8 = s.duet.digIdx.toNat
      ∧ (∀ k, k < 4 → fByte f (7 + k) = ((s.boot.digest[4 * s.duet.digIdx.toNat + k]?).getD 0).toNat)
      ∧ (∀ q r, s.duet.acks = q :: r → fByte f 1 / 16 % 2 = 1 ∧ fByte f 1 % 16 = q.toNat)
      ∧ t.duet.digIdx = s.duet.digIdx + 1 ∧ t.duet.acks = s.duet.acks.drop 1 ∧ crc16 (fBytes f 0 14) = fU f 14 2
      ∧ t.exec = s.exec ∧ t.port = s.port)
    ∧ ∀ (s : State) (len : Nat), let t := duetSlotZero s len
      (t.leader = true → ∃ f, t.duet.tx = some f ∧ fType f = 1 ∧ fU f 2 2 = t.aon.bar.toNat ∧ crc16 (fBytes f 0 14) = fU f 14 2)
        ∧ (t.leader = false → t.duet.tx = s.duet.tx)

/-- Messages: with nothing older on the line the first released message goes out with the next sequence number, a WAKE with the bar of its sending,
a SWAP_GO as the commitment to its bar; with the NOTICE of Tacet entry, or of a reset, step 3 ends, and the reset with it is complete. -/
def Sys2Proof.Part.MessagesSent : Prop :=
  ∀ (s : State) (m : Msg) (r : List Msg), s.duet.link = .up → Due.heartbeat ∉ s.metro.due → retransmit s.duet.flight = none →
    s.duet.q3 = m :: r → m.released = true → s.duet.flight.length < 4 →
    ∃ t f, exec .frameTransmit s = .next t ∧ t.duet.tx = some f ∧ fType f = m.type.toNat ∧ fSeq f = s.duet.txSeq
      ∧ crc16 (fBytes f 0 14) = fU f 14 2 ∧ (∀ q l, s.duet.acks = q :: l → fByte f 1 / 16 % 2 = 1 ∧ fByte f 1 % 16 = q.toNat)
      ∧ (∀ k : Fin 12, m.type ≠ 6 ∨ 2 ≤ k.val → f[2 + k.val] = m.body[k]) ∧ (m.type = 6 → fU f 2 2 = s.aon.bar.toNat)
      ∧ ((s.cond.phase ≠ .tacetEntry 3 ∧ s.cond.phase ≠ .resetEntry) ∨ m.type ≠ 9 → t = { s with duet := t.duet } ∧ t.duet.q3 = r
          ∧ t.duet.flight = s.duet.flight ++ [⟨f, 0, false⟩] ∧ t.duet.txSeq = s.duet.txSeq + 1 ∧ t.duet.acks = s.duet.acks.drop 1
          ∧ (m.type = 8 → t.duet.goSent = some (BitVec.ofNat 16 (fU f 3 2)) ∧ t.duet.handover = true)
          ∧ (m.type ≠ 8 → t.duet.goSent = s.duet.goSent ∧ t.duet.handover = s.duet.handover))
      ∧ (s.cond.phase = .tacetEntry 3 → m.type = 9 → t.cond.phase = .tacetEntry 2 ∧ t.duet = { Duet.off with tx := some f })
      ∧ (s.cond.phase = .resetEntry → m.type = 9 → inReset t s.boot.entry (some f) ∧ keptByReset s t)

/-- Retransmission: a frame marked due goes out again, unchanged, when nothing is to be acknowledged; an acknowledgement that no new message can
carry goes out with a heartbeat first (log entry 38). A timeout marks its frame; the fourth gives it up and counts a drop. -/
def Sys2Proof.Part.Retransmissions : Prop :=
  (∀ (s : State) (a b : List Flight) (x : Flight), s.duet.link = .up → Due.heartbeat ∉ s.metro.due → s.duet.acks = [] →
    s.duet.flight = a ++ x :: b → (∀ y ∈ a, y.due = false) → x.due = true →
    exec .frameTransmit s = .next { s with duet := { s.duet with
      flight := a ++ { x with tries := x.tries + 1, due := false } :: b, tx := some x.bytes } })
    ∧ (∀ (s : State) (q : BitVec 4) (r : List (BitVec 4)), s.duet.link ≠ .off → Due.heartbeat ∉ s.metro.due → s.duet.acks = q :: r →
      (s.duet.link = .seeking ∨ (∃ x ∈ s.duet.flight, x.due = true) ∨ s.duet.q3 = [] ∨ (∃ m l, s.duet.q3 = m :: l ∧ m.released = false)
        ∨ 4 ≤ s.duet.flight.length) →
      ∃ t f, exec .frameTransmit s = .next t ∧ t = { s with duet := { s.duet with tx := some f, acks := r, digIdx := s.duet.digIdx + 1 } }
        ∧ fType f = 2 ∧ fByte f 1 / 16 % 2 = 1 ∧ fByte f 1 % 16 = q.toNat)
    ∧ (∀ (s : State) (x : Flight) (r : List Flight), s.duet.link = .up → s.duet.flight = x :: r → x.due = false → x.tries < 3 →
      (∀ y ∈ r, fSeq y.bytes ≠ fSeq x.bytes) →
      exec (.retransmitTimeout (fSeq x.bytes)) s = .next { s with duet := { s.duet with flight := { x with due := true } :: r } })
    ∧ ∀ (s : State) (x : Flight) (r : List Flight), s.duet.link = .up → s.duet.flight = x :: r → x.due = false → 3 ≤ x.tries →
      (∀ y ∈ r, fSeq y.bytes ≠ fSeq x.bytes) →
      ∃ t, exec (.retransmitTimeout (fSeq x.bytes)) s = .next t ∧ t.aon.dropFlag = true
        ∧ (fType x.bytes ≠ 8 → t.duet = { s.duet with flight := r } ∧ t.aon.drops = min (s.aon.drops + 1) 65535)
        ∧ (fType x.bytes = 8 → t.duet.link = .seeking)

/-- What the link sends, and the withdrawal of a SWAP_GO at slot 32. (That step 3 ends when its NOTICE has been sent is log entry 49; step 3 of a reset,
log entry 70.) -/
def Obligations.DuetSends : Prop :=
  Part.LinkFramesSent ∧ Part.MessagesSent ∧ Part.Retransmissions
    ∧ ∀ s : State, Due.withdraw ∈ s.metro.due →
      ∃ t, exec .swapGoWithdraw s = .next t ∧ t.duet = { s.duet with q3 := s.duet.q3.filter fun m => m.type ≠ 8 } ∧ Due.withdraw ∉ t.metro.due

/-- The link goes down: after 8 beats of the slower module without a valid frame, at a NOTICE, and when an up link receives a link frame that does
not match. Retries are cancelled, the ring of messages is discarded and counted (the frames in flight are not, log entry 37), requests and
commitments are cleared. -/
def Sys2Proof.Part.LinkGoesDown : Prop :=
  (∀ s : State, s.duet.link = .up →
    let d := stDivisor s s.st
    let limit := 8 * 16 * ((divisor s.duet.pDivx.toNat + d - 1) / d)
    (limit ≤ s.duet.quiet → ∃ t, exec .partnerSilenceTimeout s = .next t ∧ (t.det 13).pending = true ∧ Down s t ∧ t.duet.acks = s.duet.acks)
      ∧ (s.duet.quiet < limit → exec .partnerSilenceTimeout s = .next s))
    ∧ (∀ (s : State) (f : FrameBytes), Executes s f 9 →
      ∃ t, exec (.notice f) s = .next t ∧ Down s t ∧ t.duet.noticed = true ∧ t.duet.acks = s.duet.acks ++ [fSeq f])
    ∧ (∀ (s : State) (f : FrameBytes) (scheduled : Bool) (arrival : Int), Arrives s f 2 → s.duet.link = .up →
      (frameMatches s f = false ∨ frameReady f = false ∨ (scheduled = true ∧ fByte f 5 / 16 ≠ s.duet.epoch.toNat)) →
      ∃ t, exec (.heartbeat f ⟨scheduled, arrival⟩) s = .next t ∧ Down s t)
    ∧ ∀ (s : State) (f : FrameBytes) (arrival : Int), Arrives s f 1 → s.duet.link = .up →
      (frameMatches s f = false ∨ frameReady f = false) →
      ∃ t, exec (.bar f arrival) s = .next t ∧ Down { s with duet := { s.duet with
        pState := if fByte f 4 / 16 % 8 ≤ 3 then some (PState.ofNum (fByte f 4 / 16 % 8)) else s.duet.pState } } t

/-- Link frames received. In a seeking module a frame that matches adds its DIGIDX, any other starts the match anew; the module is ready when all
eight are covered, and a BAR's STATE is kept, unless it is 4 to 7 (log entry 34). A matching BAR keeps an up link up: a follower in a hold begins its
bar at the arrival, with the frame's number and aligned if the divisors are equal, one outside a hold sets its bar length by the loop (log entries 32,
33). A leader takes the latest r of a heartbeat, and starts with x = 0 where a scheduled one shows that the follower is not aligned (log entry 72). -/
def Sys2Proof.Part.LinkFrames : Prop :=
  (∀ (s : State) (f : FrameBytes) (scheduled : Bool) (arrival : Int), s.duet.link = .seeking → s.metro.hold = false →
    ∀ c, (c = .heartbeat f ⟨scheduled, arrival⟩ ∧ Arrives s f 2) ∨ (c = .bar f arrival ∧ Arrives s f 1) →
      ∃ t, exec c s = .next t ∧ t = { s with duet := t.duet } ∧ t.duet.link = .seeking ∧ t.duet.quiet = 0
        ∧ t.duet.seen = (if frameMatches s f then s.duet.seen ||| BitVec.ofNat 8 (2 ^ (fByte f 6 % 8)) else 0)
        ∧ t.duet.ready = (s.duet.ready || decide (t.duet.seen = 255)) ∧ t.duet.partnerReady = (s.duet.partnerReady || frameReady f)
        ∧ t.duet.pDivx.toNat = fByte f 4 % 16
        ∧ t.duet.pState = (if fType f = 1 ∧ fByte f 4 / 16 % 8 ≤ 3 then some (PState.ofNum (fByte f 4 / 16 % 8)) else s.duet.pState))
    ∧ (∀ (s : State) (f : FrameBytes) (arrival : Int), Arrives s f 1 → s.duet.link = .up → frameMatches s f = true →
      frameReady f = true → s.leader = false → s.running = true → s.metro.on = true → s.metro.hold = true → romFailures s.metro.barErrors = [] →
      ∃ t, exec (.bar f arrival) s = .next t ∧ t.metro.hold = false ∧ t.metro.slot = 0 ∧ t.metro.slot0 = true
        ∧ t.aon.bar.toNat = fU f 2 2 ∧ t.metro.start = arrival
        ∧ (s.duet.commit = none → s.cond.next = none → fByte f 1 / 16 % 2 = 0 →
            (t.metro.aligned = true ↔ stDivx s s.st = fByte f 4 % 16)))
    ∧ (∀ (s : State) (f : FrameBytes) (scheduled : Bool) (arrival : Int), Arrives s f 2 → s.duet.link = .up →
      frameMatches s f = true → frameReady f = true → fByte f 5 / 16 = s.duet.epoch.toNat → s.leader = true → s.metro.hold = false →
      let r := signed 24 (fU f 11 3)
      let near : Prop := ∃ k : Int, 64 * |7 * (arrival - 24 - s.metro.start) - k * s.metro.len| ≤ s.metro.len
      let astray : Prop := scheduled = true ∧ (fU f 2 2 ≠ s.aon.bar.toNat ∨ (r = 0 ∧ ¬near))
      ∃ t, exec (.heartbeat f ⟨scheduled, arrival⟩) s = .next t ∧ t.duet.link = .up
        ∧ (astray → t.metro = { s.metro with x := 0, rRecv := 0 }) ∧ (¬astray → t.metro = { s.metro with rRecv := r }))
    ∧ ∀ (s : State) (f : FrameBytes) (arrival : Int), Arrives s f 1 → s.duet.link = .up → frameMatches s f = true →
      frameReady f = true → s.leader = false → s.running = true → s.metro.on = true → s.metro.hold = false →
      ∃ t, exec (.bar f arrival) s = .next t ∧ t.duet.link = .up ∧ t.duet.quiet = 0
        ∧ (fByte f 4 / 16 % 8 ≤ 3 → t.duet.pState = some (PState.ofNum (fByte f 4 / 16 % 8)))
        ∧ (4 ≤ fByte f 4 / 16 % 8 → t.duet.pState = s.duet.pState)
        ∧ t.metro.tlPrev = some (arrival - 24)
        ∧ (∀ n, t.metro.next = some n → s.metro.next = some n ∨ (stBarLen s s.st ≤ n ∧ n ≤ stBarLen s s.st + stBarLen s s.st * 45 / 1000))
        ∧ t.exec = s.exec ∧ t.port = s.port ∧ t.aon = s.aon

/-- The Duet link: matching, staying up, going down. (The partner's records that wait when the link falls, log entry 36; the windows of received WAKE
frames and the STATE of the latest BAR, which stay, log entry 77.) -/
def Obligations.LinkStates : Prop := Part.LinkFrames ∧ Part.LinkGoesDown

/-- What a message frame does that an up link executes: a verdict becomes one of the partner's, a REC_A waits for its REC_B, a WAKE opens its window, SWAP_REQ
and SWAP_GO act on their role; what has passed is forgotten at slot 0, and a new partner starts with no verdict (R290, R296, R300, R302, R304, R306;
the bounds of the lists: log entry 77; SWAP_GO's epoch is not compared: log entry 35). -/
def Sys2Proof.Part.MessageEffects : Prop :=
  (∀ (s : State) (f : FrameBytes), Executes s f 3 → fByte f 4 % 2 = 1 →
    ∃ p : PartnerVerdict,
      exec (.verdict f) s = .next (let u := messageTaken s f; { u with duet := { u.duet with partner := p :: u.duet.partner } })
      ∧ p.bar.toNat = fU f 2 2 ∧ (p.present = true ↔ fByte f 4 / 2 % 2 = 1) ∧ p.gest.toNat = fByte f 4 / 4 % 8
      ∧ p.summary.toNat = fU f 5 3 % 2 ^ 20 ∧ ∀ k : Fin 6, p.elems[k] = f[8 + k.val])
    ∧ (∀ (s : State) (f : FrameBytes), Executes s f 3 → fByte f 4 % 2 = 0 → exec (.verdict f) s = .next (messageTaken s f))
    ∧ (∀ (s : State) (f : FrameBytes), Executes s f 4 →
      ∃ b : Vector Byte 10, exec (.recA f) s = .next (let u := messageTaken s f
          { u with duet := { u.duet with
            halves := ((fSeq f, BitVec.ofNat 4 (fByte f 2), BitVec.ofNat 8 (fByte f 3), b) :: u.duet.halves).take 4 } })
        ∧ ∀ k : Fin 10, b[k] = f[4 + k.val])
    ∧ (∀ (s : State) (f : FrameBytes), Executes s f 6 →
      exec (.wake f) s = .next (let u := messageTaken s f
          { u with duet := { u.duet with wakes := (BitVec.ofNat 16 (fU f 2 2), BitVec.ofNat 8 (fByte f 4)) :: u.duet.wakes } }))
    ∧ (∀ (s : State) (len : Nat), let t := duetSlotZero s len
      (∀ w, w ∈ t.duet.wakes ↔ w ∈ s.duet.wakes ∧ ((s.aon.bar - w.1).toNat ≤ w.2.toNat ∨ 0x8000 ≤ (s.aon.bar - w.1).toNat))
        ∧ ∀ p, p ∈ t.duet.partner ↔ p ∈ s.duet.partner ∧ (p.bar + 1 - s.aon.bar).toNat < 0x8000
            ∧ ¬(s.duet.link = .seeking ∧ t.duet.link = .up))
    ∧ (∀ (s : State) (f : FrameBytes), Executes s f 7 →
      exec (.swapReq f) s = .next (let u := messageTaken s f
        if s.role = false ∧ fByte f 2 = s.duet.epoch.toNat then { u with duet := { u.duet with held := true } } else u))
    ∧ ∀ (s : State) (f : FrameBytes), Executes s f 8 →
      exec (.swapGo f) s = .next (let u := messageTaken s f
        if s.role then { u with duet := { u.duet with commit := some (BitVec.ofNat 16 (fU f 3 2)), handover := true } } else u)

/-- A REC_B that follows its REC_A: the leader keeps the record, the first half's type and flags and both halves' payload, for its next slot 444; at a
follower the record is a drop. Without its first half a REC_B does nothing (R272, R288, R306). -/
def Sys2Proof.Part.RelayedRecord : Prop :=
  (∀ (s : State) (f : FrameBytes) (type : BitVec 4) (flags : Byte) (first : Vector Byte 10), Executes s f 5 →
    s.duet.halves.find? (fun h => h.1 + 1 = fSeq f) = some (fSeq f - 1, type, flags, first) →
    ∃ t, exec (.recB f) s = .next t ∧ t.duet.halves = s.duet.halves.filter (fun h => h.1 + 1 ≠ fSeq f) ∧ t.port = s.port
      ∧ (s.leader = true → t.duet.relayed = s.duet.relayed ++ [(type, flags, first.toList ++ fBytes f 2 10)] ∧ t.aon = s.aon)
      ∧ (s.leader = false → t.duet.relayed = s.duet.relayed ∧ t.aon = { s.aon with drops := min (s.aon.drops + 1) 65535, dropFlag := true }))
    ∧ ∀ (s : State) (f : FrameBytes), Executes s f 5 → (∀ h ∈ s.duet.halves, h.1 + 1 ≠ fSeq f) → exec (.recB f) s = .next (messageTaken s f)

/-- A record of the partner as a leader's slot 444 enqueues it, while no start holds its records back: SRC 1, its type and payload, the module's own sequence number, and of the flags STALE, HOLD,
INJ, TEST, PRIV and BROWN each the OR of the partner's and the leader's own (R281), STALE in the types that can carry it (log entry 36). A module
that is no leader enqueues none. -/
def Sys2Proof.Part.RelayedEnqueued : Prop :=
  (∀ (s : State) (inStart stale : Bool), s.leader = false ∨ inStart = true → pushPartners s inStart stale = s) ∧
  ∀ (s : State) (type : BitVec 4) (flags : Byte) (p : List Byte) (stale : Bool), Inv s → s.port.ring.length < 64 → s.leader = true →
    s.duet.relayed = [(type, flags, p)] →
    ∃ e, (pushPartners s false stale).port.ring = s.port.ring ++ [e] ∧ e.st = .enqueued ∧ (pushPartners s false stale).duet.relayed = []
      ∧ (e.data[1]).toNat = 16 + type.toNat ∧ e.data[2] = s.aon.seq ∧ (e.data[7]).toNat / 16 = 1
      ∧ (∀ k : Fin 20, e.data[8 + k.val] = p.getD k.val 0)
      ∧ (∀ j ∈ [1, 2, 3, 5, 6], (e.data[3]).getLsbD j = (flags.getLsbD j || (flagsOf s).testBit j))
      ∧ (e.data[3]).getLsbD 4 = true
      ∧ (e.data[3]).getLsbD 0 = (flags.getLsbD 0 || (stale && decide (1 ≤ type.toNat) && decide (type.toNat ≤ 6)))

/-- A duplicate is acknowledged and not executed, and neither is a message frame that reaches a seeking module; on a link that is off nothing
happens (R289, R294, R296). -/
def Sys2Proof.Part.NotExecuted : Prop :=
  ∀ q ∈ [(Instr.verdict, 3), (Instr.recA, 4), (Instr.recB, 5), (Instr.wake, 6), (Instr.swapReq, 7), (Instr.swapGo, 8), (Instr.notice, 9)],
    ∀ (s : State) (f : FrameBytes),
      (Arrives s f q.2 → s.duet.link = .up → s.duet.memory.contains (fSeq f) = true →
        exec (q.1 f) s = .next (let u := takeAck { s with duet := { s.duet with quiet := 0 } } f
          { u with duet := { u.duet with acks := u.duet.acks ++ [fSeq f] } }))
        ∧ (Arrives s f q.2 → s.duet.link = .seeking →
          exec (q.1 f) s = .next { s with duet := { s.duet with quiet := 0, acks := s.duet.acks ++ [fSeq f] } })
        ∧ (s.duet.link = .off → exec (q.1 f) s = .next s)

/-- Message frames: each valid one is acknowledged, and an up link executes one whose number is not among the last four. (That the partner's records wait
for the leader's next slot 444 is log entry 36.) -/
def Obligations.MessagesExecuted : Prop := Part.MessageEffects ∧ Part.RelayedRecord ∧ Part.RelayedEnqueued ∧ Part.NotExecuted

/-- An invalid frame, by its CRC, its TYPE or a reserved field, and any frame under a held injection at code 12, is discarded without an
acknowledgement and counted by detector 12 with its DETAIL; a seeking module starts its match anew; a link that is off receives nothing. (That a DIVX
of 10 to 15 and a NOTICE's KIND other than 1 make a frame invalid is log entry 34.) -/
def Obligations.InvalidFrames : Prop :=
  (∀ (s : State) (e : FrameError), s.duet.link ≠ .off →
    ∃ t, exec (.invalidFrame e) s = .next t ∧ Discarded s t (if s.inject 12 then 1 else match e with
      | .crc => 1
      | .type => 2
      | .reserved => 3
      | .incomplete => 4))
    ∧ (∀ (s : State) (c : Instr) (f : FrameBytes), frameIn c = some f → s.duet.link ≠ .off →
      (s.inject 12 = true ∨ crc16 (fBytes f 0 14) ≠ fU f 14 2 → ∃ t, exec c s = .next t ∧ Discarded s t 1)
        ∧ (s.inject 12 = false → crc16 (fBytes f 0 14) = fU f 14 2 →
          (fType f = 0 ∨ 10 ≤ fType f → ∃ t, exec c s = .next t ∧ Discarded s t 2)
            ∧ (1 ≤ fType f → fType f ≤ 9 → ReservedSet f → ∃ t, exec c s = .next t ∧ Discarded s t 3)))
    ∧ ∀ (s : State) (c : Instr), s.duet.link = .off → (∃ f, frameIn c = some f) ∨ (∃ e, c = .invalidFrame e) → exec c s = .next s

/-! ### Flailo -/

/-- LOAD and CAL_WRITE: no word is written where a marked word differs, or where VPP is out of range while a word is to be written; otherwise every word is
marked, the marked ones unchanged and the others, unless they fail their read-back, holding the new data (comparing before VPP, checking VPP only
when a word is to be written, going on after a failed word: log entry 40). -/
def Sys2Proof.Part.ProgramWords : Prop :=
  ∀ (s : State) (vpp : Nat) (fails : List Nat) (ws : Words), (∀ w ∈ ws, w.2.length = 8 ∧ otpBase ≤ 8 * w.1) → (ws.map (·.1)).Nodup →
    cellsWf s.nvm.otp = true → s.nvm.failing = [] →
    ∀ c, ((∃ h, c = Instr.calWrite h vpp fails ∧ h.data = [] ∧ h.len = 0 ∧ Takes s 0x05 h ∧ ws = stagedWords s.flailo.staged)
        ∨ ∃ h, c = Instr.load h vpp fails ∧ h.data.length = h.len.toNat ∧ 8 ≤ h.len.toNat ∧ h.len.toNat ≤ 4096 ∧ h.len.toNat % 8 = 0
          ∧ h.addr.toNat % 8 = 0 ∧ h.addr.toNat + h.len.toNat ≤ 0x200000 ∧ Takes s 0x01 h ∧ ws = wordsOf (otpBase + h.addr.toNat) h.data) →
      ∃ t, exec c s = .next t ∧ t = { s with nvm := t.nvm, flailo := t.flailo } ∧ t.flailo.staged = s.flailo.staged ∧
        if ∃ w ∈ ws, w.1 ∈ s.nvm.marks ∧ s.nvm.bytes (8 * w.1) 8 ≠ w.2 then t.nvm = s.nvm ∧ t.flailo.response.head? = some 0x04
        else if (∃ w ∈ ws, w.1 ∉ s.nvm.marks) ∧ (vpp < 6800 ∨ 7200 < vpp) then t.nvm = s.nvm ∧ t.flailo.response.head? = some 0x09
        else (∀ w ∈ ws, w.1 ∈ t.nvm.marks ∧ (w.1 ∉ fails → t.nvm.bytes (8 * w.1) 8 = w.2))
          ∧ t.flailo.response.head? = some (if ∃ w ∈ ws, w.1 ∉ s.nvm.marks ∧ w.1 ∈ fails then 0x0B else 0x00)

/-- SEAL blows the fuse once dark W, dark H and touch calibration are written, and else answers NOT_READY. -/
def Sys2Proof.Part.Seal : Prop :=
  ∀ (s : State) (h : FlailoHead), h.data = [] → h.len = 0 → Takes s 0x07 h →
    ∃ r, exec (.seal h) s = .next { s with nvm := { s.nvm with sealed := decide ((s.nvm.read 0x600000).toNat % 8 = 7) }, flailo := { s.flailo with response := r } }
      ∧ r.head? = some (if (s.nvm.read 0x600000).toNat % 8 = 7 then 0x00 else 0x0A)

/-- OTP programming and the seal. -/
def Obligations.Programming : Prop := Part.ProgramWords ∧ Part.Seal

/-- VERIFY: a slot that is empty or has a bad header answers DIGEST_BAD; any other answers the digest of its body, with OK exactly when the image is
valid, so that the digest then is the header's. (What the digest bytes of a slot without a body are, log entry 15.) -/
def Sys2Proof.Part.VerifyAnswers : Prop :=
  ∀ (s : State) (h : FlailoHead), h.data = [] → h.len = 0 → Takes s 0x02 h →
    let base := if h.addr.getLsbD 20 then 0x500000 else 0x400000
    let u := selecting s (if h.addr.getLsbD 20 then 7 else 6)
    let digest := sha256 ((List.range (s.nvm.u (base + 8) 4)).map fun i => s.nvm.read (base + 64 + i))
    ∃ x bs, exec (.verify h) s = .next { s with flailo := { s.flailo with response := (x :: bs) ++ beBytes 2 (crc16 (x :: bs)) } }
      ∧ bs.length = 32 ∧ (slotEmpty u = true ∨ headerOk u = false → x = 0x05)
      ∧ (slotEmpty u = false → headerOk u = true → bs = digest ∧ (x = 0 ∨ x = 0x05) ∧ (x = 0 ↔ imageFault u false = none)
          ∧ (x = 0 → bs = s.nvm.bytes (base + 16) 32))

/-- READ: the bytes of score OTP or calibration OTP at an allowed address and length, else BAD_ARG (Table 16-10). -/
def Sys2Proof.Part.ReadAnswers : Prop :=
  ∀ (s : State) (h : FlailoHead), h.data = [] → Takes s 0x06 h →
    let a := h.addr.toNat
    let n := h.len.toNat
    let score : Prop := a < 0x200000 ∧ a + n ≤ 0x200000
    let cal : Prop := 0x800000 ≤ a ∧ a < 0x802000 ∧ a - 0x800000 + n ≤ 0x2000
    ∃ x bs, exec (.read h) s = .next { s with flailo := { s.flailo with response := (x :: bs) ++ beBytes 2 (crc16 (x :: bs)) } }
      ∧ (1 ≤ n → n ≤ 4096 → score → x = 0 ∧ bs = s.nvm.bytes (0x400000 + a) n)
      ∧ (1 ≤ n → n ≤ 4096 → cal → x = 0 ∧ bs = s.nvm.bytes (0x600000 + (a - 0x800000)) n)
      ∧ (n = 0 ∨ 4096 < n ∨ (¬score ∧ ¬cal) → x = 0x03 ∧ bs = [])

/-- INFO and an unknown opcode. -/
def Sys2Proof.Part.InfoAnswers : Prop :=
  (∀ (s : State) (h : FlailoHead), h.data = [] → h.len = 0 → Takes s 0x08 h →
    ∃ b, let r := (0 : Byte) :: s.nvm.bytes 0x600000 16 ++ [b]
      exec (.info h) s = .next { s with flailo := { s.flailo with response := r ++ beBytes 2 (crc16 r) } })
    ∧ ∀ (s : State) (op : Byte) (h : FlailoHead), h.data.length = h.len.toNat → op = 0 ∨ 8 < op.toNat → Takes s op h →
      exec (.flailoUnknownOpcode op h) s = .next { s with flailo := { s.flailo with response := 0x02 :: beBytes 2 (crc16 [0x02]) } }

/-- Every command of the protocol: on a sealed part or outside Flailo mode it does nothing, with a wrong CRC it answers BAD_CRC, and with data where
its row has n = 0 it answers BAD_ARG. -/
def Sys2Proof.Part.CommandChecks : Prop :=
  ∀ (s : State) (c : Instr) (op : Byte) (h : FlailoHead), commandIn c = some (op, h) → c.wf = true →
    (s.cond.phase ≠ .flailo ∨ s.nvm.sealed = true → exec c s = .next s)
      ∧ (s.cond.phase = .flailo → s.nvm.sealed = false → crc16 (commandBytes op h) ≠ h.crc.toNat →
          exec c s = .next { s with flailo := { s.flailo with response := 0x01 :: beBytes 2 (crc16 [0x01]) } })
      ∧ (Takes s op h → op ∈ [0x02, 0x03, 0x04, 0x05, 0x07, 0x08] → h.len ≠ 0 →
          exec c s = .next { s with flailo := { s.flailo with response := 0x03 :: beBytes 2 (crc16 [0x03]) } })

/-- The answers of VERIFY, READ, INFO and unknown opcodes, which change nothing else, and the checks of every command. (The order of the checks,
log entries 15, 17 and 40.) -/
def Obligations.FlailoAnswers : Prop := Part.VerifyAnswers ∧ Part.ReadAnswers ∧ Part.InfoAnswers ∧ Part.CommandChecks

/-- DARK_CAL: without the interlock it stages nothing; else the plane reads 16 bars unbinned at EXP 3576, each pixel black-corrected with the B_eff
of its bar, and a mean above 24 LSB clears what is staged of the plane, while one that is dark stages offset and gain of every column and the
pixels that differ from their column by more than 16 LSB (R127, R128, R326; seed and bars are operands, log entry 81). -/
def Sys2Proof.Part.DarkCalibration : Prop :=
  ∀ (s : State) (h : FlailoHead) (led : Bool) (seed : List Code) (bars : List (List (List Code) × List Code)) (resp : List Nat), Inv s →
    (Instr.darkCal h led ⟨seed, bars⟩ resp).wf = true → h.len = 0 → Takes s 0x03 h →
    ∃ t, exec (.darkCal h led ⟨seed, bars⟩ resp) s = .next t ∧ t.flailo.staged.touch = s.flailo.staged.touch
      ∧ (led = false → t = { s with flailo := t.flailo } ∧ t.flailo.staged = s.flailo.staged ∧ t.flailo.response.head? = some 0x08)
      ∧ (led = true → ∃ level : Nat → Nat,
          let p := h.plane
          let wd := planeWidth p
          let ht := planeHeight p
          let code (k y x : Nat) : Nat := ((((bars.getD k ([], [])).1.getD y []).getD x 0) : Code).toNat
          let mean (l : List Code) : Nat := (8 * (l.map (·.toNat)).sum + wd) / (2 * wd)
          let sum (y x : Nat) : Nat :=
            ((List.range 16).map fun k => (max 0 (min ((code k y x : Int) - roundDiv (level k) 16) 1023)).toNat).sum
          let col (x : Nat) : Nat := ((List.range ht).map fun y => sum y x).sum
          let total := ((List.range wd).map col).sum
          let staged (u : State) : Option (List Int × List Int) := match p with
            | .w => u.flailo.staged.darkW
            | .h => u.flailo.staged.darkH
          let pn := match p with
            | .w => 0
            | .h => 1
          let own (l : List (Nat × Nat × Nat × Nat)) := l.filter fun e => e.2.1 = pn
          level 0 = mean seed
            ∧ (∀ k, k < 16 → level (k + 1) = ((level k : Int) + roundDiv ((mean (bars.getD k ([], [])).2 : Int) - level k) 4).toNat)
            ∧ (∃ r, t = { s.setPlane p { s.plane p with bin := 1, black := level 16, used := some ⟨3576, 0⟩ } with flailo := r })
            ∧ t.flailo.staged.defects.length ≤ 512
            ∧ (24 * (16 * ht * wd) < total → t.flailo.response.head? = some 0x06 ∧ staged t = none ∧ own t.flailo.staged.defects = [])
            ∧ (total ≤ 24 * (16 * ht * wd) → ∃ o g, staged t = some (o, g) ∧ o.length = wd ∧ g.length = wd
              ∧ (∀ x, x < wd → o.getD x 0 = max (-128) (min (roundDiv (8 * ((col x : Int) * wd - total)) (16 * ht * wd)) 127)
                ∧ (resp.getD x 0 ≠ 0 → g.getD x 0 = max (-128) (min (roundDiv (1024 * ((resp.sum : Int) - wd * resp.getD x 0)) (wd * resp.getD x 0)) 127)))
              ∧ (∀ e ∈ own t.flailo.staged.defects, 256 * (ht : Int) < |(sum e.2.2.1 e.2.2.2 : Int) * ht - col e.2.2.2|)
              ∧ (t.flailo.staged.defects.length < 512 → ∀ y x, y < ht → x < wd → 256 * (ht : Int) < |(sum y x : Int) * ht - col x| →
                  ∃ e ∈ own t.flailo.staged.defects, e.2.2 = (y, x))
              ∧ (let r := (0 : Byte) :: beBytes 2 ((2 * total + ht * wd) / (2 * (ht * wd))) ++ beBytes 2 (own t.flailo.staged.defects).length
                 t.flailo.response = r ++ beBytes 2 (crc16 r))))

/-- TOUCH_CAL: each node's count is the rounded mean of its 64 scans; NOT_CLEAR, with nothing staged, when a node of at least 800 counts lies below
85 % of its drive row's median (the mean of the two in the middle, log entry 18) or a node's scans spread by more than 40; else every mean is
staged, 0 below 800 counts, and the answer counts those. -/
def Sys2Proof.Part.TouchCalibration : Prop :=
  ∀ (s : State) (h : FlailoHead) (scans : List (List Nat)), (Instr.touchCal h scans).wf = true → h.len = 0 → Takes s 0x04 h →
    let at' (k n : Nat) : Nat := (scans.getD k []).getD n 0
    let mean (n : Nat) : Nat := (2 * ((List.range 64).map fun k => at' k n).sum + 64) / 128
    ∃ (t : State) (median2 : Nat → Nat), exec (.touchCal h scans) s = .next t ∧ t = { s with flailo := t.flailo }
      ∧ t.flailo.staged.darkW = s.flailo.staged.darkW ∧ t.flailo.staged.darkH = s.flailo.staged.darkH
      ∧ t.flailo.staged.defects = s.flailo.staged.defects
      ∧ (∀ i, i < 8 → ∃ r : List Nat, r.Perm ((List.range 16).map fun j => mean (16 * i + j)) ∧ r.Pairwise (· ≤ ·)
          ∧ median2 i = r.getD 7 0 + r.getD 8 0)
      ∧ (let bad : Prop := ∃ n, n < 128 ∧ ((800 ≤ mean n ∧ 200 * mean n < 85 * median2 (n / 16))
            ∨ ∃ j k, j < 64 ∧ k < 64 ∧ at' j n + 40 < at' k n)
         (bad → t.flailo.staged = s.flailo.staged ∧ t.flailo.response = 0x07 :: beBytes 2 (crc16 [0x07]))
          ∧ (¬bad → ∃ l, t.flailo.staged.touch = some l ∧ l.length = 128 ∧ (∀ n, n < 128 → l.getD n 0 = if mean n < 800 then 0 else mean n)
              ∧ (let r := [(0 : Byte), BitVec.ofNat 8 (l.filter (· = 0)).length]
                 t.flailo.response = r ++ beBytes 2 (crc16 r))))

/-- DARK_CAL and TOUCH_CAL. (The gain of a column without response is free, log entry 5; the defect count of the plane's own list, log entry 40; the
byte order of the answered numbers, log entry 17.) -/
def Obligations.Calibration : Prop := Part.DarkCalibration ∧ Part.TouchCalibration

/-! ### Pads -/

/-- Isolation and reset states: isolated pads have no driver and no pull but PRIV_N's; until reset completes the VIO outputs have no driver, and
with VIO valid their pulls give PRESENT 0, GEST 7, TOUCH_N 1 and EVT_N 1, EV_SDO none; without VIO they float (R53, R54, R89). -/
def Sys2Proof.Part.PadsAtRest : Prop :=
  ∀ s : State,
    let out : List (Nat × PadDrive) :=
      [(54, presentDrive s), (55, gestDrive s 0), (56, gestDrive s 1), (57, gestDrive s 2), (58, touchDrive s), (53, evtDrive s)]
    (s.supply.isolated = true → (∀ q ∈ out, q.2 = .highZ) ∧ (∀ b r n, sdoDrive s b r n = .highZ) ∧ (∀ b, duTxDrive s b = .highZ)
        ∧ lraDrives s = false ∧ (∀ n, n ≠ 14 → pullOf s n = .none))
      ∧ pullOf s 14 = .downAlways
      ∧ (s.outOfReset = false ∨ s.supply.vio = false → (∀ q ∈ out, q.2 = .highZ) ∧ ∀ b r n, sdoDrive s b r n = .highZ)
      ∧ (s.outOfReset = false → s.supply.vio = true → s.supply.isolated = false →
          out.map (fun q => padLevel s q.1 q.2) = [some false, some true, some true, some true, some true, some true]
            ∧ ∀ b r n, padLevel s 52 (sdoDrive s b r n) = none)
      ∧ (s.supply.vio = false → ∀ q ∈ out, padLevel s q.1 q.2 = none)
      ∧ (s.outOfReset = false → s.cond.phase ≠ .resetEntry → ∀ b, duTxDrive s b = .highZ)

/-- Driven pads: after the latch moment the verdict pins show what the Conductor holds, EVT_N is low exactly while a released record waits, EV_SDO is
driven only while EV_CS_N is low, most significant bit of each byte first and 0 after bit 255, DU_TX is low between frames of an enabled link
and high-impedance with its pull-down otherwise, in Tacet too (R73, R263, R265, R282; EVT_N in Tacet entry: log entry 59). -/
def Sys2Proof.Part.PadsDriven : Prop :=
  (∀ s : State, s.outOfReset = true → s.supply.vio = true → s.supply.isolated = false →
    presentDrive s = .driven s.cond.present ∧ (∀ i, gestDrive s i = .driven (s.cond.gest.getLsbD i)) ∧ touchDrive s = .driven s.cond.touchN
      ∧ (evtDrive s = .driven false ↔ s.port.on = true ∧ ∃ e ∈ s.port.ring, e.st ≠ .enqueued)
      ∧ (evtDrive s = .driven true ↔ ¬(s.port.on = true ∧ ∃ e ∈ s.port.ring, e.st ≠ .enqueued))
      ∧ (∀ r n, sdoDrive s false r n = .highZ)
      ∧ (s.port.on = true → ∀ (r : Record) (n : Nat), sdoDrive s true r n
          = .driven (if n < 256 then decide ((((r[n / 8]?).getD 0).toNat / 2 ^ (7 - n % 8)) % 2 = 1) else false)))
    ∧ (∀ s : State, s.supply.isolated = false →
      (s.duet.link = .off → ∀ b, duTxDrive s b = .highZ ∧ padLevel s 59 (duTxDrive s b) = some false)
        ∧ (s.supply.vana = true → s.duet.link ≠ .off → s.outOfReset = true ∨ s.cond.phase = .resetEntry →
            duTxDrive s none = .driven false ∧ ∀ b, duTxDrive s (some b) = .driven b))
    ∧ ∀ s : State, s.supply.isolated = false → (lraDrives s = true ↔ s.accent.bridge ≠ .off)

/-- The pad map of Table 03-1: every pad has one row; the reset states and pulls of its rows. -/
def Sys2Proof.Part.PadMap : Prop :=
  (∀ n, 1 ≤ n → n ≤ 76 → (padMap.filter fun r => r.pads.contains n).length = 1)
    ∧ (∀ r ∈ padMap, ∀ n ∈ r.pads, 1 ≤ n ∧ n ≤ 76)
    ∧ (∀ n, (padRow n).map (·.pull) = some .up ↔ n ∈ [50, 53, 55, 56, 57, 58])
    ∧ (∀ n, (padRow n).map (·.pull) = some .down ↔ n ∈ [45, 46, 47, 48, 51, 54, 59, 60, 74, 75, 76])
    ∧ (∀ n, (padRow n).map (·.pull) = some .down10k ↔ 20 ≤ n ∧ n ≤ 43) ∧ (∀ n, (padRow n).map (·.pull) = some .down50k ↔ 62 ≤ n ∧ n ≤ 67)
    ∧ (∀ n, (padRow n).map (·.pull) = some .downPgnd ↔ n = 17 ∨ n = 18) ∧ (∀ n, (padRow n).map (·.pull) = some .downAlways ↔ n = 14)
    ∧ (∀ n, (padRow n).map (·.dir) = some .output ↔ n ∈ [4, 5, 17, 18] ∨ (20 ≤ n ∧ n ≤ 27) ∨ (52 ≤ n ∧ n ≤ 59))
    ∧ ∀ n, (padRow n).map (·.reset) = some .highZ ↔ n ∈ [4, 5, 17, 18, 52]

/-- The Flailo pads connect to nothing once the seal is blown (R55); on an unsealed part with VIO they are pulled down, and in Flailo mode PRG_DAT is low
while the module is busy, high when it is ready, and shows the response bit by bit, each from a falling edge of PRG_CLK on, most significant bit of
each byte first (R324; when the first bit comes, log entry 40). -/
def Sys2Proof.Part.FlailoPads : Prop :=
  ∀ s : State,
    (s.nvm.sealed = true → (∀ n ∈ [74, 75, 76], pullOf s n = .none) ∧ ∀ m, prgDatDrive s m = .highZ)
      ∧ (s.nvm.sealed = false → s.supply.vio = true → s.supply.isolated = false →
          (∀ n ∈ [74, 75, 76], pullOf s n = .down)
            ∧ (s.cond.phase ≠ .flailo → ∀ m, prgDatDrive s m = .highZ)
            ∧ (s.cond.phase = .flailo → prgDatDrive s .command = .highZ ∧ prgDatDrive s .busy = .driven false
              ∧ prgDatDrive s .ready = .driven true ∧ prgDatDrive s (.response 0) = .driven true
              ∧ ∀ n, n < 8 * s.flailo.response.length → prgDatDrive s (.response (n + 1)) =
                  .driven (decide ((((s.flailo.response[n / 8]?).getD 0).toNat / 2 ^ (7 - n % 8)) % 2 = 1))))

/-- The CAM_LED current, the Soli clock in an over-scaled slot and the Flailo pads (R31, R55, R238, Table 12-4). -/
def Sys2Proof.Part.CurrentAndClock : Prop :=
  (∀ s : State, (s.vpix.sink = true → ledCurrent s = ledMa s) ∧ (s.vpix.sink = false → ledCurrent s = 0))
    ∧ (∀ s : State, (s.metro.overScaled = false → soliClock s = s.blocks.sclk)
      ∧ (s.metro.overScaled = true → 8 ≤ s.codes.rubato.eff.toNat → soliClock s = min s.blocks.sclk
          (8 * if s.codes.rubato.eff.toNat ≤ 9 then 300 else if s.codes.rubato.eff.toNat ≤ 12 then 250 else 200)))
    ∧ ∀ s : State, flailoPadsOn s = true ↔ s.nvm.sealed = false

/-- The pads, the LED current and the Soli clock as the state gives them. (How Table 03-1 is read, and pulls without their supply: log entry 82; the
order of clock and VCORE: log entry 83; the link in step 3 of a reset: log entry 70.) -/
def Obligations.PadStates : Prop := Part.PadsAtRest ∧ Part.PadsDriven ∧ Part.PadMap ∧ Part.FlailoPads ∧ Part.CurrentAndClock
end

