-- ==== Sys2Proof/Laws/Memory.lean ====
section
/-!
SUPPORT. Laws of the memory (R140, R359): what one read gives after one write, and that every memory operation keeps the canonical form.
-/
namespace Sys2Proof.Laws

open Sys2Proof.Machine

/-! ### Rising lists -/

theorem rising_cons (a : Nat) (l : List Nat) : rising (a :: l) = true ↔ (∀ x ∈ l, a < x) ∧ rising l = true := by
  induction l generalizing a with
  | nil => simp [rising]
  | cons b r ih =>
    simp only [rising, Bool.and_eq_true, decide_eq_true_eq, List.mem_cons, forall_eq_or_imp]
    constructor
    · rintro ⟨h, k⟩
      exact ⟨⟨h, fun x hx => h.trans (((ih b).1 k).1 x hx)⟩, k⟩
    · rintro ⟨⟨h, -⟩, k⟩
      exact ⟨h, k⟩

theorem rising_filter (p : Nat → Bool) (l : List Nat) (h : rising l = true) : rising (l.filter p) = true := by
  induction l with
  | nil => rfl
  | cons a r ih =>
    have k := (rising_cons a r).1 h
    by_cases q : p a = true
    · rw [List.filter_cons_of_pos q, rising_cons]
      exact ⟨fun x hx => k.1 x (List.mem_filter.1 hx).1, ih k.2⟩
    · rw [List.filter_cons_of_neg q]
      exact ih k.2

theorem mem_numInsert (l : List Nat) (n x : Nat) : x ∈ numInsert l n ↔ x = n ∨ x ∈ l := by
  induction l with
  | nil => simp [numInsert]
  | cons a r ih =>
    unfold numInsert
    split
    · simp
    · split
      · simp_all
      · simp [ih]; tauto

theorem rising_numInsert (l : List Nat) (n : Nat) (h : rising l = true) : rising (numInsert l n) = true := by
  induction l with
  | nil => rfl
  | cons a r ih =>
    have k := (rising_cons a r).1 h
    unfold numInsert
    split
    · rename_i q
      rw [rising_cons]
      refine ⟨fun x hx => ?_, h⟩
      rcases List.mem_cons.1 hx with rfl | hx
      · exact q
      · exact q.trans (k.1 x hx)
    · split
      · exact h
      · rw [rising_cons]
        refine ⟨fun x hx => ?_, ih k.2⟩
        rcases (mem_numInsert r n x).1 hx with rfl | hx
        · omega
        · exact k.1 x hx

/-! ### Sparse bytes -/

theorem cellsWf_cons (k : Nat) (v : Byte) (r : List Host.Cell) :
    cellsWf ((k, v) :: r) = true ↔ (∀ x ∈ r, k < x.1) ∧ v ≠ 0 ∧ cellsWf r = true := by
  simp only [cellsWf, List.map_cons, List.all_cons, Bool.and_eq_true, rising_cons, List.mem_map, decide_eq_true_eq]
  constructor
  · rintro ⟨⟨h, i⟩, j, k⟩
    exact ⟨fun x hx => h _ ⟨x, hx, rfl⟩, j, i, k⟩
  · rintro ⟨h, j, i, k⟩
    exact ⟨⟨by rintro _ ⟨x, hx, rfl⟩; exact h x hx, i⟩, j, k⟩

theorem cellGet_of_lt (r : List Host.Cell) (a : Nat) (h : ∀ x ∈ r, a < x.1) : cellGet r a = 0 := by
  induction r with
  | nil => rfl
  | cons c r ih =>
    obtain ⟨k, v⟩ := c
    have := h (k, v) (by simp)
    have ne : k ≠ a := by simp at this; omega
    simp only [cellGet, if_neg ne]
    exact ih fun x hx => h x (List.mem_cons_of_mem _ hx)

/-- A byte read after a byte is written: the written one at its address, every other as before. -/
theorem cellGet_cellSet (c : List Host.Cell) (a x : Nat) (b : Byte) (h : cellsWf c = true) :
    cellGet (cellSet c a b) x = if x = a then b else cellGet c x := by
  induction c with
  | nil =>
    unfold cellSet
    split
    · rename_i q
      by_cases e : x = a <;> simp [cellGet, e, q]
    · by_cases e : x = a
      · subst e; simp [cellGet]
      · have e' : a ≠ x := fun h => e h.symm
        simp [cellGet, e, e']
  | cons d r ih =>
    obtain ⟨k, v⟩ := d
    obtain ⟨h1, h2, h3⟩ := (cellsWf_cons k v r).1 h
    unfold cellSet
    split
    · rename_i lt
      have g : cellGet ((k, v) :: r) a = 0 := by
        apply cellGet_of_lt
        intro y hy
        rcases List.mem_cons.1 hy with rfl | hy
        · exact lt
        · exact lt.trans (h1 y hy)
      split
      · rename_i z
        by_cases e : x = a
        · subst e; simp [g, z]
        · simp [e]
      · by_cases e : x = a
        · subst e; simp [cellGet]
        · have e' : a ≠ x := fun h => e h.symm
          rw [cellGet, if_neg e', if_neg e]
    · split
      · rename_i eq
        subst eq
        have g : cellGet r a = 0 := cellGet_of_lt r a h1
        split
        · rename_i z
          by_cases e : x = a
          · subst e; simp [g, z]
          · have e' : a ≠ x := fun h => e h.symm
            simp [e, cellGet, e']
        · by_cases e : x = a
          · subst e; simp [cellGet]
          · have e' : a ≠ x := fun h => e h.symm
            simp [e, cellGet, e']
      · rename_i nlt ne
        by_cases e : k = x
        · subst e
          have : ¬ k = a := fun h => ne h.symm
          simp [cellGet, this]
        · simp only [cellGet, if_neg e]
          exact ih h3

theorem mem_cellSet (c : List Host.Cell) (a : Nat) (b : Byte) (x : Host.Cell) (h : x ∈ cellSet c a b) : x = (a, b) ∨ x ∈ c := by
  induction c with
  | nil =>
    unfold cellSet at h
    split at h <;> simp_all
  | cons d r ih =>
    obtain ⟨k, v⟩ := d
    unfold cellSet at h
    split at h
    · split at h
      · exact .inr h
      · exact List.mem_cons.1 h
    · split at h
      · split at h
        · exact .inr (List.mem_cons_of_mem _ h)
        · rcases List.mem_cons.1 h with h | h
          · exact .inl h
          · exact .inr (List.mem_cons_of_mem _ h)
      · rcases List.mem_cons.1 h with h | h
        · exact .inr (h ▸ List.mem_cons_self)
        · rcases ih h with h | h
          · exact .inl h
          · exact .inr (List.mem_cons_of_mem _ h)

/-- Writing a byte keeps the canonical form. -/
theorem cellsWf_cellSet (c : List Host.Cell) (a : Nat) (b : Byte) (h : cellsWf c = true) : cellsWf (cellSet c a b) = true := by
  induction c with
  | nil =>
    unfold cellSet
    split
    · rfl
    · rename_i q
      exact (cellsWf_cons a b []).2 ⟨by simp, q, rfl⟩
  | cons d r ih =>
    obtain ⟨k, v⟩ := d
    obtain ⟨h1, h2, h3⟩ := (cellsWf_cons k v r).1 h
    unfold cellSet
    split
    · rename_i lt
      split
      · exact h
      · rename_i z
        rw [cellsWf_cons]
        refine ⟨fun y hy => ?_, z, h⟩
        rcases List.mem_cons.1 hy with rfl | hy
        · exact lt
        · exact lt.trans (h1 y hy)
    · split
      · rename_i eq
        subst eq
        split
        · exact h3
        · rename_i z
          exact (cellsWf_cons a b r).2 ⟨h1, z, h3⟩
      · rename_i nlt ne
        rw [cellsWf_cons]
        refine ⟨fun y hy => ?_, h2, ih h3⟩
        rcases mem_cellSet r a b y hy with rfl | hy
        · show k < a; omega
        · exact h1 y hy

theorem cellsWf_filter (p : Host.Cell → Bool) (c : List Host.Cell) (h : cellsWf c = true) : cellsWf (c.filter p) = true := by
  induction c with
  | nil => rfl
  | cons d l ih =>
    obtain ⟨g1, g2, g3⟩ := (cellsWf_cons d.1 d.2 l).1 h
    by_cases q : p d = true
    · rw [List.filter_cons_of_pos q]
      exact (cellsWf_cons d.1 d.2 _).2 ⟨fun x hx => g1 x (List.mem_filter.1 hx).1, g2, ih g3⟩
    · rw [List.filter_cons_of_neg q]
      exact ih g3

/-! ### Tensor SRAM and the held store -/

/-- The canonical form, part by part. -/
theorem ram_wf_iff (r : Ram) : r.wf = true ↔
    cellsWf r.cells = true ∧ rising r.flags = true ∧ rising r.bad = true ∧ (∀ x ∈ r.cells, x.1 / 8 ∈ r.flags) ∧
      ∀ w ∈ r.bad, w ∈ r.flags := by
  simp [Ram.wf, and_assoc]

theorem ram_wf_empty : Ram.empty.wf = true := by decide

theorem ram_wf_clear (r : Ram) (p : Nat → Bool) (h : r.wf = true) : (r.clear p).wf = true := by
  rw [ram_wf_iff] at h ⊢
  obtain ⟨h1, h2, h3, h4, h5⟩ := h
  refine ⟨?_, rising_filter _ _ h2, rising_filter _ _ h3, ?_, ?_⟩
  · exact cellsWf_filter _ _ h1
  · intro x hx
    obtain ⟨a, b⟩ := List.mem_filter.1 hx
    exact List.mem_filter.2 ⟨h4 x a, b⟩
  · intro w hw
    obtain ⟨a, b⟩ := List.mem_filter.1 hw
    exact List.mem_filter.2 ⟨h5 w a, b⟩

theorem ram_wf_upset (r : Ram) (w : Nat) (h : r.wf = true) : (r.upset w).wf = true := by
  unfold Ram.upset
  split
  · rename_i q
    rw [ram_wf_iff] at h ⊢
    obtain ⟨h1, h2, h3, h4, h5⟩ := h
    refine ⟨h1, h2, rising_numInsert _ _ h3, h4, fun x hx => ?_⟩
    rcases (mem_numInsert _ _ _).1 hx with rfl | hx
    · simpa using q
    · exact h5 x hx
  · exact h

theorem cells_put (bs : List (Nat × Byte)) (c : List Host.Cell) (fl : List Nat) (h : cellsWf c = true) (w : Nat)
    (hw : ∀ x ∈ bs, x.1 / 8 = w) (hf : ∀ x ∈ c, x.1 / 8 = w ∨ x.1 / 8 ∈ fl) :
    cellsWf (bs.foldl (fun c x => cellSet c x.1 x.2) c) = true ∧
      ∀ x ∈ bs.foldl (fun c x => cellSet c x.1 x.2) c, x.1 / 8 = w ∨ x.1 / 8 ∈ fl := by
  induction bs generalizing c with
  | nil => exact ⟨h, hf⟩
  | cons b r ih =>
    refine ih (cellSet c b.1 b.2) (cellsWf_cellSet c b.1 b.2 h) (fun x hx => hw x (List.mem_cons_of_mem _ hx)) fun x hx => ?_
    rcases mem_cellSet c b.1 b.2 x hx with rfl | hx
    · exact .inl (hw b List.mem_cons_self)
    · exact hf x hx

/-- Writing bytes of one word keeps the canonical form. -/
theorem ram_wf_put (r : Ram) (w : Nat) (bs : List (Nat × Byte)) (hw : ∀ x ∈ bs, x.1 / 8 = w) (h : r.wf = true) :
    (r.put w bs).wf = true := by
  rw [ram_wf_iff] at h ⊢
  obtain ⟨h1, h2, h3, h4, h5⟩ := h
  obtain ⟨a, b⟩ := cells_put bs r.cells r.flags h1 w hw fun x hx => .inr (h4 x hx)
  refine ⟨a, rising_numInsert _ _ h2, h3, fun x hx => ?_, fun x hx => ?_⟩
  · exact (mem_numInsert _ _ _).2 (b x hx)
  · exact (mem_numInsert _ _ _).2 (.inr (h5 x hx))

/-- A store of bytes of one word keeps the canonical form. -/
theorem ram_wf_store (r : Ram) (w : Nat) (bs : List (Nat × Byte)) (hw : ∀ x ∈ bs, x.1 / 8 = w) (h : r.wf = true) :
    (r.store w bs).wf = true := by
  unfold Ram.store
  split
  · apply ram_wf_put _ _ _ hw
    rw [ram_wf_iff] at h ⊢
    obtain ⟨h1, h2, h3, h4, h5⟩ := h
    exact ⟨h1, h2, rising_filter _ _ h3, h4, fun x hx => h5 x (List.mem_filter.1 hx).1⟩
  · split
    · exact h
    · exact ram_wf_put _ _ _ hw h

/-- The pieces that a store is split into lie in the words they are stored to. -/
theorem mem_byWord (a : Nat) (bs : List Byte) (w : Nat × List (Nat × Byte)) (h : w ∈ byWord a bs) : ∀ x ∈ w.2, x.1 / 8 = w.1 := by
  unfold byWord at h
  obtain ⟨k, -, rfl⟩ := List.mem_map.1 h
  intro x hx
  simpa using (List.mem_filter.1 hx).2

/-! ### Reading after a write -/

/-- The value that a list of stored bytes gives an address: the last one. -/
def lastByte (bs : List (Nat × Byte)) (p : Nat) (old : Byte) : Byte := bs.foldl (fun v x => if x.1 = p then x.2 else v) old

theorem cellGet_foldl (bs : List (Nat × Byte)) (c : List Host.Cell) (p : Nat) (h : cellsWf c = true) :
    cellGet (bs.foldl (fun c x => cellSet c x.1 x.2) c) p = lastByte bs p (cellGet c p) := by
  induction bs generalizing c with
  | nil => rfl
  | cons x l ih =>
    rw [List.foldl_cons, ih _ (cellsWf_cellSet _ _ _ h), cellGet_cellSet _ _ _ _ h]
    simp only [lastByte, List.foldl_cons, eq_comm]

theorem cellGet_eq_zero (c : List Host.Cell) (p : Nat) (h : ∀ x ∈ c, x.1 ≠ p) : cellGet c p = 0 := by
  induction c with
  | nil => rfl
  | cons x l ih =>
    obtain ⟨k, v⟩ := x
    rw [cellGet, if_neg (h (k, v) (by simp)), ih fun y hy => h y (by simp [hy])]

theorem cellGet_unwritten (r : Ram) (p : Nat) (h : r.wf = true) (hp : p / 8 ∉ r.flags) : cellGet r.cells p = 0 :=
  cellGet_eq_zero _ _ fun x hx e => hp (e ▸ ((ram_wf_iff r).1 h).2.2.2.1 x hx)

/-- What a word in no error reads as after bytes have been put into it, and every other word as before. -/
theorem read_put (r : Ram) (w : Nat) (bs : List (Nat × Byte)) (p : Nat) (h : r.wf = true) (hw : ∀ x ∈ bs, x.1 / 8 = w) (hb : w ∉ r.bad) :
    (r.put w bs).read p = lastByte bs p (r.read p) := by
  have ht : ∀ (bs : List (Nat × Byte)) (v : Byte), (∀ x ∈ bs, x.1 ≠ p) → lastByte bs p v = v := by
    intro bs
    induction bs with
    | nil => intro v _; rfl
    | cons x l ih =>
      intro v k
      rw [lastByte, List.foldl_cons, if_neg (k x (by simp))]
      exact ih v fun y hy => k y (by simp [hy])
  have e : (r.put w bs).read p = if (numInsert r.flags w).contains (p / 8) && !r.bad.contains (p / 8)
      then lastByte bs p (cellGet r.cells p) else 0 := by
    unfold Ram.read Ram.put
    dsimp only
    rw [cellGet_foldl _ _ _ ((ram_wf_iff r).1 h).1]
  rw [e]
  by_cases q : p / 8 = w
  · have a : (numInsert r.flags w).contains (p / 8) = true := by simp [mem_numInsert, q]
    have b : r.bad.contains (p / 8) = false := by simpa [q] using hb
    rw [a, b]
    simp only [Bool.not_false, Bool.and_true, if_true]
    congr 1
    unfold Ram.read
    by_cases f : p / 8 ∈ r.flags
    · have b' : p / 8 ∉ r.bad := by simpa using b
      simp [f, b']
    · simp [f, cellGet_unwritten r p h f]
  · have k : ∀ x ∈ bs, x.1 ≠ p := fun x hx e => q (e ▸ hw x hx)
    rw [ht _ _ k, ht _ _ k]
    have : (numInsert r.flags w).contains (p / 8) = r.flags.contains (p / 8) := by
      rw [Bool.eq_iff_iff]; simp [mem_numInsert, q]
    rw [this]; rfl

/-- A store: nothing where a word in error takes fewer than 8 bytes, else the bytes stored. -/
theorem read_store (r : Ram) (w : Nat) (bs : List (Nat × Byte)) (p : Nat) (h : r.wf = true) (hw : ∀ x ∈ bs, x.1 / 8 = w) (hb : w ∉ r.bad) :
    (r.store w bs).read p = lastByte bs p (r.read p) := by
  have e : numErase r.bad w = r.bad := by
    unfold numErase; rw [List.filter_eq_self]; intro a ha; simp; rintro rfl; exact hb ha
  unfold Ram.store
  split
  · rw [e]; exact read_put r w bs p h hw hb
  · have : r.bad.contains w = false := by simpa using hb
    rw [this]; exact read_put r w bs p h hw hb

theorem lastByte_mapIdx (bs : List Byte) (a p : Nat) (old : Byte) :
    lastByte (bs.mapIdx fun i b => (a + i, b)) p old = if a ≤ p ∧ p < a + bs.length then bs.getD (p - a) 0 else old := by
  induction bs generalizing a old with
  | nil => simp [lastByte]
  | cons b l ih =>
    rw [List.mapIdx_cons]
    have e : (fun (i : Nat) (b : Byte) => (a + (i + 1), b)) = fun i b => (a + 1 + i, b) := by funext i b; congr 1; omega
    have := ih (a + 1) (if a = p then b else old)
    rw [lastByte, List.foldl_cons]
    simp only [Nat.add_zero]
    rw [lastByte] at this
    have e2 : List.mapIdx (fun (i : Nat) (b : Byte) => (a + (i + 1), b)) l = List.mapIdx (fun i b => (a + 1 + i, b)) l := by rw [e]
    rw [e2, this]
    by_cases h : a = p
    · subst h; simp
    · by_cases g : a + 1 ≤ p ∧ p < a + 1 + l.length
      · rw [if_pos g, if_pos (by simp; omega)]
        obtain ⟨k, hk⟩ : ∃ k, p - a = k + 1 := ⟨p - a - 1, by omega⟩
        rw [hk, List.getD_cons_succ]; congr 1; omega
      · rw [if_neg g, if_neg h, if_neg (by rw [List.length_cons]; omega)]

theorem lastByte_filter (cs : List (Nat × Byte)) (w p : Nat) (old : Byte) (h : p / 8 = w) :
    lastByte (cs.filter fun x => x.1 / 8 = w) p old = lastByte cs p old := by
  induction cs generalizing old with
  | nil => rfl
  | cons x l ih =>
    by_cases k : x.1 / 8 = w
    · simp only [List.filter_cons, k, decide_true, if_true, lastByte, List.foldl_cons]; exact ih _
    · have : x.1 ≠ p := by rintro rfl; exact k h
      simp only [List.filter_cons, k, decide_false, lastByte, List.foldl_cons, if_neg this]
      exact ih _

theorem lastByte_none (bs : List (Nat × Byte)) (p : Nat) (v : Byte) (k : ∀ x ∈ bs, x.1 ≠ p) : lastByte bs p v = v := by
  induction bs generalizing v with
  | nil => rfl
  | cons x l ih =>
    rw [lastByte, List.foldl_cons, if_neg (k x (by simp))]
    exact ih v fun y hy => k y (by simp [hy])

theorem bad_store (r : Ram) (w : Nat) (bs : List (Nat × Byte)) (hb : w ∉ r.bad) : (r.store w bs).bad = r.bad := by
  have e : numErase r.bad w = r.bad := by
    unfold numErase; rw [List.filter_eq_self]; intro a ha; simp; rintro rfl; exact hb ha
  unfold Ram.store
  split
  · simp [Ram.put, e]
  · split <;> simp [Ram.put]

end Sys2Proof.Laws
end

