-- ==== Sys2Proof/Laws/Calm.lean ====
section
/-!
SUPPORT. What no operation but a few named ones changes: the queue, the gate's tokens, ROM and OTP, the series switch, the latched straps and
codes; no entry of a ring is released, and the invariant is kept.
-/
namespace Sys2Proof.Laws

open Sys2Proof.Machine Sys2Proof.Safety

/-- From `s` to `t` nothing of this list has changed, no ring entry has been released, and the invariant still holds. -/
structure Calm (s t : State) : Prop where
  pending : t.pending = s.pending
  tokens : t.aon.tokens = s.aon.tokens
  acc : t.aon.acc = s.aon.acc
  nvm : t.nvm = s.nvm
  closed : t.vpix.closed = s.vpix.closed
  straps : t.boot.straps = s.boot.straps
  tempo : t.boot.tempo = s.boot.tempo
  slew : t.boot.slew = s.boot.slew
  ring : ∀ e ∈ t.port.ring, e.st ≠ .enqueued → e ∈ s.port.ring
  q3 : ∀ m ∈ t.duet.q3, m.released = true → m ∈ s.duet.q3
  inv : Inv s → Inv t

theorem Calm.refl (s : State) : Calm s s := ⟨rfl, rfl, rfl, rfl, rfl, rfl, rfl, rfl, fun _ h _ => h, fun _ h _ => h, id⟩

theorem Calm.trans {s t u : State} (a : Calm s t) (b : Calm t u) : Calm s u :=
  ⟨b.pending.trans a.pending, b.tokens.trans a.tokens, b.acc.trans a.acc, b.nvm.trans a.nvm, b.closed.trans a.closed,
    b.straps.trans a.straps, b.tempo.trans a.tempo, b.slew.trans a.slew, fun e h k => a.ring e (b.ring e h k) k,
    fun m h k => a.q3 m (b.q3 m h k) k, fun h => b.inv (a.inv h)⟩

/-- A state in which the named lists have only lost members. -/
theorem Calm.of_le {s t u : State} (a : Calm s t)
    (h : u.pending = t.pending ∧ u.aon.tokens = t.aon.tokens ∧ u.aon.acc = t.aon.acc ∧ u.nvm = t.nvm ∧ u.vpix.closed = t.vpix.closed
      ∧ u.boot.straps = t.boot.straps ∧ u.boot.tempo = t.boot.tempo ∧ u.boot.slew = t.boot.slew)
    (ring : ∀ e ∈ u.port.ring, e.st ≠ .enqueued → e ∈ t.port.ring) (q3 : ∀ m ∈ u.duet.q3, m.released = true → m ∈ t.duet.q3)
    (inv : Inv t → Inv u) : Calm s u := by
  obtain ⟨h1, h2, h3, h4, h5, h6, h7, h8⟩ := h
  exact a.trans ⟨h1, h2, h3, h4, h5, h6, h7, h8, ring, q3, inv⟩

/-- A state that differs only in fields that neither the list nor the invariant names. -/
theorem Calm.of_eq {s t u : State} (a : Calm s t)
    (h : u.pending = t.pending ∧ u.aon.tokens = t.aon.tokens ∧ u.aon.acc = t.aon.acc ∧ u.nvm = t.nvm ∧ u.vpix.closed = t.vpix.closed
      ∧ u.boot.straps = t.boot.straps ∧ u.boot.tempo = t.boot.tempo ∧ u.boot.slew = t.boot.slew ∧ u.port.ring = t.port.ring
      ∧ u.duet.q3 = t.duet.q3 ∧ u.ram = t.ram ∧ u.exec.q0 = t.exec.q0 ∧ u.exec.q1 = t.exec.q1 ∧ u.exec.tutti = t.exec.tutti
      ∧ u.exec.soli = t.exec.soli ∧ u.metro.slot = t.metro.slot ∧ u.exec.pins = t.exec.pins
      ∧ u.flailo.staged.defects = t.flailo.staged.defects) : Calm s u := by
  obtain ⟨h1, h2, h3, h4, h5, h6, h7, h8, h9, h10, h11, h12, h13, h14, h15, h16, h17, h18⟩ := h
  refine a.trans ⟨h1, h2, h3, h4, h5, h6, h7, h8, fun e h _ => h9 ▸ h, fun m h _ => h10 ▸ h, fun i => ?_⟩
  exact ⟨by rw [h11]; exact i.ram, by rw [h4]; exact i.otp, by rw [h2]; exact i.tokens, by rw [h3]; exact i.acc,
    by rw [h2, h3]; exact i.full, by rw [h9]; exact i.ring, by rw [h10]; exact i.q3, by rw [h12]; exact i.q0, by rw [h13]; exact i.q1,
    by rw [h14]; exact i.tutti, by rw [h15]; exact i.soli, by rw [h16]; exact i.slot,
    by rw [h17]; exact i.pins, by rw [h18]; exact i.defects⟩

/-- A record update of a state. -/
theorem Calm.mk' {s t : State} {aon : Aon} {supply : Supply} {boot : Boot} {codes : Codes} {metro : Metro} {ref : RefClk} {planeW : PlaneState} {planeH : PlaneState} {vpix : Vpix} {priv : Priv} {thermal : Thermal} {dets : Vector Detector 20} {inj : Injection} {limiter : Limiter} {blocks : Blocks} {ram : Ram} {nvm : Nvm} {exec : Exec} {touch : Touch} {accent : Accent} {port : Port} {duet : Duet} {cond : Conductor} {fermata : Option Fermata} {fermataNext : Option Bool} {flailo : Flailo} {free : Nat}
    (a : Calm s t)
    (h : aon.tokens = t.aon.tokens ∧ aon.acc = t.aon.acc ∧ nvm = t.nvm ∧ vpix.closed = t.vpix.closed ∧ boot.straps = t.boot.straps
      ∧ boot.tempo = t.boot.tempo ∧ boot.slew = t.boot.slew ∧ port.ring = t.port.ring ∧ duet.q3 = t.duet.q3 ∧ ram = t.ram
      ∧ exec.q0 = t.exec.q0 ∧ exec.q1 = t.exec.q1 ∧ exec.tutti = t.exec.tutti ∧ exec.soli = t.exec.soli ∧ metro.slot = t.metro.slot
      ∧ exec.pins = t.exec.pins ∧ flailo.staged.defects = t.flailo.staged.defects) :
    Calm s ⟨t.pending, aon, supply, boot, codes, metro, ref, planeW, planeH, vpix, priv, thermal, dets, inj, limiter, blocks, ram, nvm, exec, touch, accent, port, duet, cond, fermata, fermataNext, flailo, free⟩ :=
  a.of_eq ⟨rfl, h⟩

/-- A record update of a state in which a bar's slot 0 has begun. -/
theorem Calm.mkZero {s t : State} {aon : Aon} {supply : Supply} {boot : Boot} {codes : Codes} {metro : Metro} {ref : RefClk} {planeW : PlaneState} {planeH : PlaneState} {vpix : Vpix} {priv : Priv} {thermal : Thermal} {dets : Vector Detector 20} {inj : Injection} {limiter : Limiter} {blocks : Blocks} {ram : Ram} {nvm : Nvm} {exec : Exec} {touch : Touch} {accent : Accent} {port : Port} {duet : Duet} {cond : Conductor} {fermata : Option Fermata} {fermataNext : Option Bool} {flailo : Flailo} {free : Nat}
    (a : Calm s t)
    (h : aon.tokens = t.aon.tokens ∧ aon.acc = t.aon.acc ∧ nvm = t.nvm ∧ vpix.closed = t.vpix.closed ∧ boot.straps = t.boot.straps
      ∧ boot.tempo = t.boot.tempo ∧ boot.slew = t.boot.slew ∧ port.ring = t.port.ring ∧ duet.q3 = t.duet.q3 ∧ ram = t.ram
      ∧ exec.q0 = t.exec.q0 ∧ exec.q1 = t.exec.q1 ∧ exec.tutti = t.exec.tutti ∧ exec.soli = t.exec.soli ∧ metro.slot = 0
      ∧ exec.pins = t.exec.pins ∧ flailo.staged.defects = t.flailo.staged.defects) :
    Calm s ⟨t.pending, aon, supply, boot, codes, metro, ref, planeW, planeH, vpix, priv, thermal, dets, inj, limiter, blocks, ram, nvm, exec, touch, accent, port, duet, cond, fermata, fermataNext, flailo, free⟩ := by
  obtain ⟨h2, h3, h4, h5, h6, h7, h8, h9, h10, h11, h12, h13, h14, h15, h16, h17, h18⟩ := h
  refine a.of_le ⟨rfl, h2, h3, h4, h5, h6, h7, h8⟩ (fun _ m _ => h9 ▸ m) (fun _ m _ => h10 ▸ m) fun i => ?_
  exact ⟨by rw [h11]; exact i.ram, by rw [h4]; exact i.otp, by rw [h2]; exact i.tokens, by rw [h3]; exact i.acc,
    by rw [h2, h3]; exact i.full, by rw [h9]; exact i.ring, by rw [h10]; exact i.q3, by rw [h12]; exact i.q0, by rw [h13]; exact i.q1,
    by rw [h14]; exact i.tutti, by rw [h15]; exact i.soli, by rw [h16]; exact Nat.zero_lt_succ _, by rw [h17]; exact i.pins,
    by rw [h18]; exact i.defects⟩

/-- Another memory in its canonical form. -/
theorem Calm.withRam {s t : State} (a : Calm s t) (r : Ram) (k : t.ram.wf = true → r.wf = true) : Calm s { t with ram := r } :=
  a.of_le ⟨rfl, rfl, rfl, rfl, rfl, rfl, rfl, rfl⟩ (fun _ m _ => m) (fun _ m _ => m) fun i =>
    ⟨k i.ram, i.otp, i.tokens, i.acc, i.full, i.ring, i.q3, i.q0, i.q1, i.tutti, i.soli, i.slot, i.pins, i.defects⟩

theorem Calm.ite {s a b : State} {c : Prop} [Decidable c] (x : c → Calm s a) (y : ¬c → Calm s b) : Calm s (if c then a else b) := by
  split
  · exact x ‹_›
  · exact y ‹_›

theorem Calm.foldl {α : Type} {s t : State} (h : Calm s t) (f : State → α → State) (l : List α)
    (k : ∀ u x, x ∈ l → Calm s u → Calm s (f u x)) : Calm s (l.foldl f t) := by
  induction l generalizing t with
  | nil => exact h
  | cons a r ih => exact ih (k t a List.mem_cons_self h) fun u x m g => k u x (List.mem_cons_of_mem _ m) g

end Sys2Proof.Laws
end

