-- ==== Sys2Proof/Laws/CalmOps.lean ====
section
/-!
SUPPORT. Every shared operation is calm in the sense of Laws/Calm.lean: one lemma per operation, cited by the next.
-/
namespace Sys2Proof.Laws

set_option linter.unusedTactic false
set_option linter.unreachableTactic false
open Sys2Proof.Machine Sys2Proof.Safety

theorem calm_setDet {s t : State} (h : Calm s t) (d : Nat) (x : Detector) : Calm s (State.setDet t d x) := by
  unfold State.setDet
  try dsimp only
  repeat' first
    | exact h
    | split
    | with_reducible refine Calm.mk' ?_ ⟨rfl, rfl, rfl, rfl, rfl, rfl, rfl, rfl, rfl, rfl, rfl, rfl, rfl, rfl, rfl, rfl, rfl⟩

theorem calm_tripAt {s t : State} (h : Calm s t) (d : Nat) (inj : Bool) (detail : BitVec 32) (bar : BitVec 16) (slot : Nat) : Calm s (tripAt t d inj detail bar slot) := by
  unfold tripAt
  try dsimp only
  repeat' first
    | exact h
    | with_reducible apply calm_setDet
    | split
    | with_reducible refine Calm.mk' ?_ ⟨rfl, rfl, rfl, rfl, rfl, rfl, rfl, rfl, rfl, rfl, rfl, rfl, rfl, rfl, rfl, rfl, rfl⟩

theorem calm_trip {s t : State} (h : Calm s t) (d : Nat) (inj : Bool) (detail : BitVec 32) : Calm s (trip t d inj detail) := by
  unfold trip
  try dsimp only
  repeat' first
    | exact h
    | with_reducible apply calm_tripAt
    | split
    | with_reducible refine Calm.mk' ?_ ⟨rfl, rfl, rfl, rfl, rfl, rfl, rfl, rfl, rfl, rfl, rfl, rfl, rfl, rfl, rfl, rfl, rfl⟩

theorem calm_stopEntries {s t : State} (h : Calm s t)  : Calm s (stopEntries t) :=
  h.of_le ⟨rfl, rfl, rfl, rfl, rfl, rfl, rfl, rfl⟩ (fun _ m _ => m) (fun _ m _ => m) (fun i => ⟨i.ram, i.otp, i.tokens, i.acc, i.full, i.ring, i.q3, Nat.zero_le _, Nat.zero_le _, i.tutti, i.soli, i.slot, i.pins, i.defects⟩)

theorem calm_eccTrip {s t : State} (h : Calm s t) (d : Nat) (addr : Nat) : Calm s (eccTrip t d addr) := by
  unfold eccTrip
  try dsimp only
  repeat' first
    | exact h
    | with_reducible apply calm_trip
    | with_reducible apply calm_stopEntries
    | split
    | with_reducible refine Calm.mk' ?_ ⟨rfl, rfl, rfl, rfl, rfl, rfl, rfl, rfl, rfl, rfl, rfl, rfl, rfl, rfl, rfl, rfl, rfl⟩

theorem calm_countDrop {s t : State} (h : Calm s t) (n : Nat) : Calm s (countDrop t n) := by
  unfold countDrop
  try dsimp only
  repeat' first
    | exact h
    | split
    | with_reducible refine Calm.mk' ?_ ⟨rfl, rfl, rfl, rfl, rfl, rfl, rfl, rfl, rfl, rfl, rfl, rfl, rfl, rfl, rfl, rfl, rfl⟩

theorem makeRoom_ring (s : State) : (makeRoom s).port.ring.Sublist s.port.ring := by
  unfold makeRoom countDrop
  dsimp only
  split
  · exact List.Sublist.refl _
  · split
    · exact absurd ‹_› (by simp)
    · show List.Sublist (match s.port.ring with | [] => [] | a :: r => if a.st = .partly then a :: r.drop 1 else r) s.port.ring
      split
      · exact List.nil_sublist _
      · rename_i a r e
        rw [e]
        split
        · exact (List.drop_sublist 1 r).cons_cons a
        · exact List.sublist_cons_self a r

theorem makeRoom_room (s : State) (h : s.port.ring.length ≤ 64) : (makeRoom s).port.ring.length < 64 := by
  unfold makeRoom countDrop
  dsimp only
  split
  · assumption
  · split
    · exact absurd ‹_› (by simp)
    · rename_i n _
      show List.length (match s.port.ring with | [] => [] | a :: r => if a.st = .partly then a :: r.drop 1 else r) < 64
      split
      · simp
      · rename_i a r e
        rw [e] at h n
        split <;> simp at h n ⊢ <;> omega

theorem calm_makeRoom {s t : State} (h : Calm s t) : Calm s (makeRoom t) := by
  have k := makeRoom_ring t
  have l := k.length_le
  revert k l
  unfold makeRoom
  dsimp only
  split
  · exact fun _ _ => h
  · unfold countDrop
    split
    · exact absurd ‹_› (by simp)
    · intro k l
      exact h.of_le ⟨rfl, rfl, rfl, rfl, rfl, rfl, rfl, rfl⟩ (fun e m _ => k.subset m) (fun _ m _ => m)
        (fun i => ⟨i.ram, i.otp, i.tokens, i.acc, i.full, l.trans i.ring, i.q3, i.q0, i.q1, i.tutti, i.soli, i.slot, i.pins, i.defects⟩)

theorem calm_enqueue {s t : State} (h : Calm s t) (type flags src : Nat) (payload : List Byte) :
    Calm s (pushQ2 (makeRoom t) type flags src payload) := by
  have k := calm_makeRoom h
  refine ⟨k.pending, k.tokens, k.acc, k.nvm, k.closed, k.straps, k.tempo, k.slew, fun e m n => ?_, k.q3, fun i => ?_⟩
  · rcases List.mem_append.1 m with m | m
    · exact k.ring e m n
    · rw [List.mem_singleton] at m
      exact absurd (by rw [m]) n
  · have j := k.inv i
    refine ⟨j.ram, j.otp, j.tokens, j.acc, j.full, ?_, j.q3, j.q0, j.q1, j.tutti, j.soli, j.slot, j.pins, j.defects⟩
    have r := makeRoom_room t (h.inv i).ring
    refine (List.length_append (as := (makeRoom t).port.ring)).trans_le ?_
    rw [List.length_singleton]
    exact r

theorem calm_pushQ3 {s t : State} (h : Calm s t) (type : BitVec 4) (body : List Byte) : Calm s (pushQ3 t type body) := by
  unfold pushQ3
  split
  · rename_i l
    refine h.of_le ⟨rfl, rfl, rfl, rfl, rfl, rfl, rfl, rfl⟩ (fun _ m _ => m) (fun e m n => ?_)
      (fun i => ⟨i.ram, i.otp, i.tokens, i.acc, i.full, i.ring, ?_, i.q0, i.q1, i.tutti, i.soli, i.slot, i.pins, i.defects⟩)
    · rcases List.mem_append.1 m with m | m
      · exact m
      · rw [List.mem_singleton] at m
        rw [m] at n
        exact absurd n (by simp)
    · simp only [List.length_append, List.length_singleton]
      exact l
  · exact calm_countDrop h 1

theorem calm_pushRelay {s t : State} (h : Calm s t) (type flags : Nat) (payload : List Byte) : Calm s (pushRelay t type flags payload) := by
  unfold pushRelay
  try dsimp only
  repeat' first
    | exact h
    | with_reducible apply calm_countDrop
    | with_reducible apply calm_pushQ3
    | split
    | with_reducible refine Calm.mk' ?_ ⟨rfl, rfl, rfl, rfl, rfl, rfl, rfl, rfl, rfl, rfl, rfl, rfl, rfl, rfl, rfl, rfl, rfl⟩

theorem calm_pushRecord {s t : State} (h : Calm s t) (type : Nat) (stale : Bool) (src : Nat) (payload : State → List Byte) :
    Calm s (pushRecord t type stale src payload) := by
  unfold pushRecord
  dsimp only
  split
  · exact calm_pushRelay h _ _ _
  · exact calm_enqueue h _ _ _ _

theorem calm_newStamp {s t : State} (h : Calm s t)  : Calm s (newStamp t ) := by
  unfold newStamp
  try dsimp only
  repeat' first
    | exact h
    | split
    | with_reducible refine Calm.mk' ?_ ⟨rfl, rfl, rfl, rfl, rfl, rfl, rfl, rfl, rfl, rfl, rfl, rfl, rfl, rfl, rfl, rfl, rfl⟩

theorem calm_pushFault {s t : State} (h : Calm s t) (d : Nat) (ongoing : Bool) (step : Nat) : Calm s (pushFault t d ongoing step) := by
  unfold pushFault
  try dsimp only
  repeat' first
    | exact h
    | with_reducible apply calm_setDet
    | with_reducible apply calm_pushRecord
    | split
    | with_reducible refine Calm.mk' ?_ ⟨rfl, rfl, rfl, rfl, rfl, rfl, rfl, rfl, rfl, rfl, rfl, rfl, rfl, rfl, rfl, rfl, rfl⟩

theorem calm_pushChange {s t : State} (h : Calm s t) (cause frm dst len entry dur : Nat) : Calm s (pushChange t cause frm dst len entry dur) := by
  unfold pushChange
  try dsimp only
  repeat' first
    | exact h
    | with_reducible apply calm_pushRecord
    | split
    | with_reducible refine Calm.mk' ?_ ⟨rfl, rfl, rfl, rfl, rfl, rfl, rfl, rfl, rfl, rfl, rfl, rfl, rfl, rfl, rfl, rfl, rfl⟩

theorem calm_noteChange {s t : State} (h : Calm s t) (cause frm dst len dur : Nat) : Calm s (noteChange t cause frm dst len dur) := by
  unfold noteChange
  try dsimp only
  repeat' first
    | exact h
    | with_reducible apply calm_pushChange
    | split
    | with_reducible refine Calm.mk' ?_ ⟨rfl, rfl, rfl, rfl, rfl, rfl, rfl, rfl, rfl, rfl, rfl, rfl, rfl, rfl, rfl, rfl, rfl⟩

theorem calm_scrub {s t : State} (h : Calm s t)  : Calm s (scrub t) :=
  h.of_le ⟨rfl, rfl, rfl, rfl, rfl, rfl, rfl, rfl⟩ (fun _ m _ => m) (fun _ m _ => m) (fun i => ⟨ram_wf_empty, i.otp, i.tokens, i.acc, i.full, i.ring, i.q3, i.q0, i.q1, i.tutti, i.soli, i.slot, Nat.zero_lt_succ _, i.defects⟩)

theorem calm_abandonOps {s t : State} (h : Calm s t)  : Calm s (abandonOps t) :=
  h.of_le ⟨rfl, rfl, rfl, rfl, rfl, rfl, rfl, rfl⟩ (fun _ m _ => m) (fun _ m _ => m) (fun i => ⟨i.ram, i.otp, i.tokens, i.acc, i.full, i.ring, i.q3, Nat.zero_le _, Nat.zero_le _, Nat.zero_le _, Nat.zero_le _, i.slot, i.pins, i.defects⟩)

theorem calm_setPlane {s t : State} (h : Calm s t) (p : Plane) (x : PlaneState) : Calm s (State.setPlane t p x) := by
  unfold State.setPlane
  try dsimp only
  repeat' first
    | exact h
    | split
    | with_reducible refine Calm.mk' ?_ ⟨rfl, rfl, rfl, rfl, rfl, rfl, rfl, rfl, rfl, rfl, rfl, rfl, rfl, rfl, rfl, rfl, rfl⟩

theorem calm_stopPlanes {s t : State} (h : Calm s t)  : Calm s (stopPlanes t ) := by
  unfold stopPlanes
  try dsimp only
  repeat' first
    | exact h
    | split
    | with_reducible refine Calm.mk' ?_ ⟨rfl, rfl, rfl, rfl, rfl, rfl, rfl, rfl, rfl, rfl, rfl, rfl, rfl, rfl, rfl, rfl, rfl⟩

theorem calm_vpixOff {s t : State} (h : Calm s t)  : Calm s (vpixOff t ) := by
  unfold vpixOff
  try dsimp only
  repeat' first
    | exact h
    | split
    | with_reducible refine Calm.mk' ?_ ⟨rfl, rfl, rfl, rfl, rfl, rfl, rfl, rfl, rfl, rfl, rfl, rfl, rfl, rfl, rfl, rfl, rfl⟩

theorem calm_discardLink {s t : State} (h : Calm s t) : Calm s (discardLink t) := by
  unfold discardLink
  try dsimp only
  repeat' first
    | exact h
    | with_reducible apply calm_countDrop
    | split
    | with_reducible refine Calm.mk' ?_ ⟨rfl, rfl, rfl, rfl, rfl, rfl, rfl, rfl, rfl, rfl, rfl, rfl, rfl, rfl, rfl, rfl, rfl⟩

theorem calm_linkDown {s t : State} (h : Calm s t) (dst : LinkState) : Calm s (linkDown t dst) := by
  unfold linkDown
  have k := calm_discardLink h
  revert k
  generalize discardLink t = u
  intro k
  exact k.of_le ⟨rfl, rfl, rfl, rfl, rfl, rfl, rfl, rfl⟩ (fun _ m _ => m) (fun _ m _ => absurd m (by simp [Duet.off])) (fun i => ⟨i.ram, i.otp, i.tokens, i.acc, i.full, i.ring, Nat.zero_le _, i.q0, i.q1, i.tutti, i.soli, i.slot, i.pins, i.defects⟩)

theorem calm_discardRing {s t : State} (h : Calm s t)  : Calm s (discardRing t) := by
  unfold discardRing
  exact calm_countDrop (h.of_le (u := { t with port := { t.port with ring := [] } }) ⟨rfl, rfl, rfl, rfl, rfl, rfl, rfl, rfl⟩ (fun _ m _ => absurd m (by simp)) (fun _ m _ => m) (fun i => ⟨i.ram, i.otp, i.tokens, i.acc, i.full, Nat.zero_le _, i.q3, i.q0, i.q1, i.tutti, i.soli, i.slot, i.pins, i.defects⟩)) _

theorem calm_tearDown {s t : State} (h : Calm s t) (entry : Nat) (core : Bool) : Calm s (tearDown t entry core) := by
  unfold tearDown
  have k := calm_discardRing h
  revert k
  generalize discardRing t = u
  intro k
  exact k.of_le ⟨rfl, rfl, rfl, rfl, rfl, rfl, rfl, rfl⟩ (fun _ m _ => m) (fun _ m _ => m) (fun i => ⟨ram_wf_empty, i.otp, i.tokens, i.acc, i.full, i.ring, i.q3, Nat.zero_le _, Nat.zero_le _, Nat.zero_le _, Nat.zero_le _, i.slot, Nat.zero_lt_succ _, Nat.zero_le _⟩)

theorem calm_enterReset {s t : State} (h : Calm s t) (entry : Nat) (core : Bool) : Calm s (enterReset t entry core) := by
  unfold enterReset
  exact (calm_tearDown (calm_discardLink h) entry core).of_le ⟨rfl, rfl, rfl, rfl, rfl, rfl, rfl, rfl⟩ (fun _ m _ => m) (fun _ m _ => absurd m (by simp [Duet.off])) (fun i => ⟨i.ram, i.otp, i.tokens, i.acc, i.full, i.ring, Nat.zero_le _, i.q0, i.q1, i.tutti, i.soli, by simp [Metro.off], i.pins, i.defects⟩)

theorem calm_beginReset {s t : State} (h : Calm s t) (entry : Nat) : Calm s (beginReset t entry) := by
  unfold beginReset
  split
  · extract_lets u c v
    have hu : Calm s u := calm_newStamp (calm_tearDown h _ _)
    have hv : Calm s v := Calm.mk' hu ⟨rfl, rfl, rfl, rfl, rfl, rfl, rfl, rfl, rfl, rfl, rfl, rfl, rfl, rfl, rfl, rfl, rfl⟩
    exact Calm.ite (fun _ => hv) fun _ => calm_pushQ3 hv _ _
  · exact calm_enterReset h _ _

theorem calm_isolate {s t : State} (h : Calm s t) (detail : Nat) (injected : Bool) (entry : Nat) (core : Bool) : Calm s (isolate t detail injected entry core) := by
  unfold isolate
  exact Calm.mk' (calm_enterReset h _ _) ⟨rfl, rfl, rfl, rfl, rfl, rfl, rfl, rfl, rfl, rfl, rfl, rfl, rfl, rfl, rfl, rfl, rfl⟩

theorem calm_sendLink {s t : State} (h : Calm s t) (type : BitVec 4) : Calm s (sendLink t type) := by
  unfold sendLink
  try dsimp only
  repeat' first
    | exact h
    | split
    | with_reducible refine Calm.mk' ?_ ⟨rfl, rfl, rfl, rfl, rfl, rfl, rfl, rfl, rfl, rfl, rfl, rfl, rfl, rfl, rfl, rfl, rfl⟩

theorem takeRelays_sublist : ∀ l : List Msg, (takeRelays l).1.Sublist l
  | [] => by simp [takeRelays]
  | [a] => by simp [takeRelays]
  | a :: b :: r => by
    unfold takeRelays
    split
    · exact ((takeRelays_sublist r).trans (List.sublist_cons_self b r)).trans (List.sublist_cons_self a _)
    · exact (takeRelays_sublist (b :: r)).cons_cons a

theorem calm_exchangeRoles {s t : State} (h : Calm s t) (lastLen : Nat) : Calm s (exchangeRoles t lastLen) := by
  have k (u : State) (hu : Calm s u) : Calm s { u with duet := { u.duet with q3 := (takeRelays u.duet.q3).1 } } :=
    hu.of_le ⟨rfl, rfl, rfl, rfl, rfl, rfl, rfl, rfl⟩ (fun _ m _ => m) (fun _ m _ => (takeRelays_sublist _).subset m) (fun i => ⟨i.ram, i.otp, i.tokens, i.acc, i.full, i.ring, (takeRelays_sublist _).length_le.trans i.q3, i.q0, i.q1, i.tutti, i.soli, i.slot, i.pins, i.defects⟩)
  unfold exchangeRoles
  extract_lets bnom x d e v f w
  have hv : Calm s v := Calm.mk' h ⟨rfl, rfl, rfl, rfl, rfl, rfl, rfl, rfl, rfl, rfl, rfl, rfl, rfl, rfl, rfl, rfl, rfl⟩
  have hw : Calm s w := calm_countDrop hv _
  clear_value w
  split
  · dsimp only
    refine Calm.foldl (k v hv) _ _ fun u x _ g => ?_
    exact calm_enqueue g _ _ _ _
  · exact Calm.mk' hw ⟨rfl, rfl, rfl, rfl, rfl, rfl, rfl, rfl, rfl, rfl, rfl, rfl, rfl, rfl, rfl, rfl, rfl⟩

theorem calm_goUp {s t : State} (h : Calm s t)  : Calm s (goUp t ) := by
  unfold goUp
  try dsimp only
  repeat' first
    | exact h
    | split
    | with_reducible refine Calm.mk' ?_ ⟨rfl, rfl, rfl, rfl, rfl, rfl, rfl, rfl, rfl, rfl, rfl, rfl, rfl, rfl, rfl, rfl, rfl⟩

theorem calm_offerSwapGo {s t : State} (h : Calm s t)  : Calm s (offerSwapGo t ) := by
  unfold offerSwapGo
  try dsimp only
  repeat' first
    | exact h
    | with_reducible apply calm_pushQ3
    | split
    | with_reducible refine Calm.mk' ?_ ⟨rfl, rfl, rfl, rfl, rfl, rfl, rfl, rfl, rfl, rfl, rfl, rfl, rfl, rfl, rfl, rfl, rfl⟩

theorem calm_setBarLength {s t : State} (h : Calm s t)  : Calm s (setBarLength t ) := by
  unfold setBarLength
  try dsimp only
  repeat' first
    | exact h
    | split
    | with_reducible refine Calm.mk' ?_ ⟨rfl, rfl, rfl, rfl, rfl, rfl, rfl, rfl, rfl, rfl, rfl, rfl, rfl, rfl, rfl, rfl, rfl⟩

theorem calm_duetSlotZero {s t : State} (h : Calm s t) (lastLen : Nat) : Calm s (duetSlotZero t lastLen) := by
  unfold duetSlotZero
  extract_lets
  rename_i a b c d
  have ha : Calm s a := calm_newStamp (Calm.mk' h ⟨rfl, rfl, rfl, rfl, rfl, rfl, rfl, rfl, rfl, rfl, rfl, rfl, rfl, rfl, rfl, rfl, rfl⟩)
  clear_value a
  have hb : Calm s b := Calm.ite (fun _ => calm_exchangeRoles ha _) fun _ => ha
  clear_value b
  have hc : Calm s c := Calm.ite (fun _ => calm_goUp hb) fun _ => hb
  clear_value c
  have hd : Calm s d := calm_offerSwapGo (calm_setBarLength hc)
  clear_value d
  exact Calm.ite (fun _ => calm_sendLink hd _) fun _ => hd

theorem calm_startRamp {s t : State} (h : Calm s t) (old : Nat) (new : PState) (up : Bool) : Calm s (startRamp t old new up) := by
  unfold startRamp
  try dsimp only
  repeat' first
    | exact h
    | split
    | with_reducible refine Calm.mk' ?_ ⟨rfl, rfl, rfl, rfl, rfl, rfl, rfl, rfl, rfl, rfl, rfl, rfl, rfl, rfl, rfl, rfl, rfl⟩

theorem calm_replanRamp {s t : State} (h : Calm s t) (new : PState) : Calm s (replanRamp t new) := by
  unfold replanRamp
  try dsimp only
  repeat' first
    | exact h
    | split
    | with_reducible refine Calm.mk' ?_ ⟨rfl, rfl, rfl, rfl, rfl, rfl, rfl, rfl, rfl, rfl, rfl, rfl, rfl, rfl, rfl, rfl, rfl⟩

theorem calm_takeChoice {s t : State} (h : Calm s t) (new : PState) : Calm s (takeChoice t new) := by
  unfold takeChoice
  try dsimp only
  repeat' first
    | exact h
    | with_reducible apply calm_replanRamp
    | with_reducible apply calm_startRamp
    | split
    | with_reducible refine Calm.mk' ?_ ⟨rfl, rfl, rfl, rfl, rfl, rfl, rfl, rfl, rfl, rfl, rfl, rfl, rfl, rfl, rfl, rfl, rfl⟩

theorem calm_planeDown {s t : State} (h : Calm s t) (p : Plane) : Calm s (planeDown t p) := by
  unfold planeDown
  try dsimp only
  repeat' first
    | exact h
    | with_reducible apply calm_setPlane
    | with_reducible apply calm_vpixOff
    | split
    | with_reducible refine Calm.mk' ?_ ⟨rfl, rfl, rfl, rfl, rfl, rfl, rfl, rfl, rfl, rfl, rfl, rfl, rfl, rfl, rfl, rfl, rfl⟩

theorem calm_refusePower {s t : State} (h : Calm s t) : Calm s (refusePower t) := by
  unfold refusePower
  try dsimp only
  repeat' first
    | exact h
    | with_reducible apply calm_trip
    | split
    | with_reducible refine Calm.mk' ?_ ⟨rfl, rfl, rfl, rfl, rfl, rfl, rfl, rfl, rfl, rfl, rfl, rfl, rfl, rfl, rfl, rfl, rfl⟩

theorem calm_gateBanks {s t : State} (h : Calm s t) (keep : Nat) : Calm s (gateBanks t keep) := by
  unfold gateBanks
  exact h.of_le ⟨rfl, rfl, rfl, rfl, rfl, rfl, rfl, rfl⟩ (fun _ m _ => m) (fun _ m _ => m) (fun i => ⟨ram_wf_clear _ _ i.ram, i.otp, i.tokens, i.acc, i.full, i.ring, i.q3, i.q0, i.q1, i.tutti, i.soli, i.slot, i.pins, i.defects⟩)

theorem calm_doAction {s t : State} (h : Calm s t) (a : Action) : Calm s (doAction t a) := by
  have z : ∀ n, Calm s { t with
      blocks := { t.blocks with banks := t.blocks.banks &&& ~~~(BitVec.ofNat 16 (2 ^ n)) }
      ram := t.ram.clear fun w => 8 * w < heldBase && bankOf (8 * w) = n } := fun n =>
    h.of_le ⟨rfl, rfl, rfl, rfl, rfl, rfl, rfl, rfl⟩ (fun _ m _ => m) (fun _ m _ => m) (fun i => ⟨ram_wf_clear _ _ i.ram, i.otp, i.tokens, i.acc, i.full, i.ring, i.q3, i.q0, i.q1, i.tutti, i.soli, i.slot, i.pins, i.defects⟩)
  have l : ∀ x, Calm s { t with limiter := x } := fun x => Calm.mk' h ⟨rfl, rfl, rfl, rfl, rfl, rfl, rfl, rfl, rfl, rfl, rfl, rfl, rfl, rfl, rfl, rfl, rfl⟩
  unfold doAction
  cases a <;> dsimp only
  case plane q =>
    split
    · split
      · exact Calm.mk' (l _) ⟨rfl, rfl, rfl, rfl, rfl, rfl, rfl, rfl, rfl, rfl, rfl, rfl, rfl, rfl, rfl, rfl, rfl⟩
      · split
        · exact calm_refusePower (l _)
        · exact Calm.mk' (calm_setPlane (l _) q _) ⟨rfl, rfl, rfl, rfl, rfl, rfl, rfl, rfl, rfl, rfl, rfl, rfl, rfl, rfl, rfl, rfl, rfl⟩
    · exact calm_planeDown (l _) q
  case bank n =>
    split
    · exact Calm.mk' h ⟨rfl, rfl, rfl, rfl, rfl, rfl, rfl, rfl, rfl, rfl, rfl, rfl, rfl, rfl, rfl, rfl, rfl⟩
    · exact z n
  all_goals exact Calm.mk' h ⟨rfl, rfl, rfl, rfl, rfl, rfl, rfl, rfl, rfl, rfl, rfl, rfl, rfl, rfl, rfl, rfl, rfl⟩

theorem calm_finishStep5 {s t : State} (h : Calm s t)  : Calm s (finishStep5 t) :=
  h.of_le ⟨rfl, rfl, rfl, rfl, rfl, rfl, rfl, rfl⟩ (fun _ m _ => m) (fun _ m _ => m) (fun i => ⟨ram_wf_empty, i.otp, i.tokens, i.acc, i.full, i.ring, i.q3, i.q0, i.q1, i.tutti, i.soli, i.slot, i.pins, i.defects⟩)

theorem calm_beginStep5 {s t : State} (h : Calm s t) : Calm s (beginStep5 t) := by
  unfold beginStep5
  try dsimp only
  repeat' first
    | exact h
    | with_reducible apply calm_abandonOps
    | split
    | with_reducible refine Calm.mk' ?_ ⟨rfl, rfl, rfl, rfl, rfl, rfl, rfl, rfl, rfl, rfl, rfl, rfl, rfl, rfl, rfl, rfl, rfl⟩

theorem calm_slotZeroWork {s t : State} (h : Calm s t) (st : Nat) (up : Bool) : Calm s (slotZeroWork t st up) := by
  unfold slotZeroWork
  repeat' first
    | with_reducible assumption
    | (extract_lets)
    | with_reducible refine Calm.foldl ?_ _ _ fun u x m hu => ?_
    | with_reducible apply calm_planeDown
    | with_reducible apply calm_gateBanks
    | with_reducible refine Calm.ite (fun _ => ?_) (fun _ => ?_)
    | split
    | with_reducible refine Calm.mk' ?_ ⟨rfl, rfl, rfl, rfl, rfl, rfl, rfl, rfl, rfl, rfl, rfl, rfl, rfl, rfl, rfl, rfl, rfl⟩
    | with_reducible refine Calm.mkZero ?_ ⟨rfl, rfl, rfl, rfl, rfl, rfl, rfl, rfl, rfl, rfl, rfl, rfl, rfl, rfl, rfl, rfl, rfl⟩

theorem calm_overrun {s t : State} (h : Calm s t) (detail : BitVec 32) : Calm s (overrun t detail) := by
  unfold overrun
  try dsimp only
  repeat' first
    | exact h
    | with_reducible apply calm_trip
    | with_reducible apply calm_stopEntries
    | split
    | with_reducible refine Calm.mk' ?_ ⟨rfl, rfl, rfl, rfl, rfl, rfl, rfl, rfl, rfl, rfl, rfl, rfl, rfl, rfl, rfl, rfl, rfl⟩

theorem calm_checkDeadlines {s t : State} (h : Calm s t)  : Calm s (checkDeadlines t ) := by
  unfold checkDeadlines
  try dsimp only
  repeat' first
    | exact h
    | with_reducible apply calm_overrun
    | split
    | with_reducible refine Calm.mk' ?_ ⟨rfl, rfl, rfl, rfl, rfl, rfl, rfl, rfl, rfl, rfl, rfl, rfl, rfl, rfl, rfl, rfl, rfl⟩

theorem calm_setInjection {s t : State} (h : Calm s t) (code : RzCode) (set : Bool) : Calm s (setInjection t code set) := by
  unfold setInjection
  try dsimp only
  repeat' first
    | exact h
    | split
    | with_reducible refine Calm.mk' ?_ ⟨rfl, rfl, rfl, rfl, rfl, rfl, rfl, rfl, rfl, rfl, rfl, rfl, rfl, rfl, rfl, rfl, rfl⟩

theorem calm_countWarning {s t : State} (h : Calm s t) (inj : Bool) : Calm s (countWarning t inj) := by
  unfold countWarning
  try dsimp only
  repeat' first
    | exact h
    | with_reducible apply calm_trip
    | split
    | with_reducible refine Calm.mk' ?_ ⟨rfl, rfl, rfl, rfl, rfl, rfl, rfl, rfl, rfl, rfl, rfl, rfl, rfl, rfl, rfl, rfl, rfl⟩

theorem calm_setLock {s t : State} (h : Calm s t) (c : RzCode) : Calm s (setLock t c) := by
  unfold setLock
  try dsimp only
  repeat' first
    | exact h
    | split
    | with_reducible refine Calm.mk' ?_ ⟨rfl, rfl, rfl, rfl, rfl, rfl, rfl, rfl, rfl, rfl, rfl, rfl, rfl, rfl, rfl, rfl, rfl⟩

theorem calm_callFermata {s t : State} (h : Calm s t) (warn : Bool) : Calm s (callFermata t warn) := by
  unfold callFermata
  try dsimp only
  repeat' first
    | exact h
    | split
    | with_reducible refine Calm.mk' ?_ ⟨rfl, rfl, rfl, rfl, rfl, rfl, rfl, rfl, rfl, rfl, rfl, rfl, rfl, rfl, rfl, rfl, rfl⟩

theorem calm_forceTrip {s t : State} (h : Calm s t)  : Calm s (forceTrip t ) := by
  unfold forceTrip
  try dsimp only
  repeat' first
    | exact h
    | with_reducible apply calm_trip
    | with_reducible apply calm_stopEntries
    | with_reducible apply calm_vpixOff
    | with_reducible apply calm_linkDown
    | with_reducible apply calm_isolate
    | with_reducible apply calm_countWarning
    | with_reducible apply calm_callFermata
    | with_reducible apply calm_setLock
    | split
    | with_reducible refine Calm.mk' ?_ ⟨rfl, rfl, rfl, rfl, rfl, rfl, rfl, rfl, rfl, rfl, rfl, rfl, rfl, rfl, rfl, rfl, rfl⟩

theorem calm_takeCodes {s t : State} (h : Calm s t)  : Calm s (takeCodes t ) := by
  unfold takeCodes
  try dsimp only
  repeat' first
    | exact h
    | with_reducible apply calm_setInjection
    | split
    | with_reducible refine Calm.mk' ?_ ⟨rfl, rfl, rfl, rfl, rfl, rfl, rfl, rfl, rfl, rfl, rfl, rfl, rfl, rfl, rfl, rfl, rfl⟩

theorem calm_enterState {s t : State} (h : Calm s t) (new : PState) : Calm s (enterState t new) := by
  unfold enterState
  repeat' first
    | with_reducible assumption
    | (extract_lets)
    | with_reducible refine Calm.foldl ?_ _ _ fun u x m hu => ?_
    | with_reducible apply calm_startRamp
    | with_reducible apply calm_slotZeroWork
    | with_reducible refine Calm.ite (fun _ => ?_) (fun _ => ?_)
    | split
    | with_reducible refine Calm.mk' ?_ ⟨rfl, rfl, rfl, rfl, rfl, rfl, rfl, rfl, rfl, rfl, rfl, rfl, rfl, rfl, rfl, rfl, rfl⟩
    | with_reducible refine Calm.mkZero ?_ ⟨rfl, rfl, rfl, rfl, rfl, rfl, rfl, rfl, rfl, rfl, rfl, rfl, rfl, rfl, rfl, rfl, rfl⟩

theorem calm_closeBar {s t : State} (h : Calm s t) (clean : Bool) : Calm s (closeBar t clean) := by
  unfold closeBar
  try dsimp only
  repeat' first
    | exact h
    | split
    | with_reducible refine Calm.mk' ?_ ⟨rfl, rfl, rfl, rfl, rfl, rfl, rfl, rfl, rfl, rfl, rfl, rfl, rfl, rfl, rfl, rfl, rfl⟩

theorem calm_touchOrigin {s t : State} (h : Calm s t)  : Calm s (touchOrigin t ) := by
  unfold touchOrigin
  try dsimp only
  repeat' first
    | exact h
    | split
    | with_reducible refine Calm.mk' ?_ ⟨rfl, rfl, rfl, rfl, rfl, rfl, rfl, rfl, rfl, rfl, rfl, rfl, rfl, rfl, rfl, rfl, rfl⟩

theorem calm_planeSlotZero {s t : State} (h : Calm s t) (p : Plane) : Calm s (planeSlotZero t p) := by
  unfold planeSlotZero
  try dsimp only
  repeat' first
    | exact h
    | with_reducible apply calm_setPlane
    | split
    | with_reducible refine Calm.mk' ?_ ⟨rfl, rfl, rfl, rfl, rfl, rfl, rfl, rfl, rfl, rfl, rfl, rfl, rfl, rfl, rfl, rfl, rfl⟩

theorem calm_endFailedPowerUp {s t : State} (h : Calm s t) : Calm s (endFailedPowerUp t) := by
  unfold endFailedPowerUp
  try dsimp only
  repeat' first
    | exact h
    | with_reducible apply calm_setPlane
    | split
    | with_reducible refine Calm.mk' ?_ ⟨rfl, rfl, rfl, rfl, rfl, rfl, rfl, rfl, rfl, rfl, rfl, rfl, rfl, rfl, rfl, rfl, rfl⟩

theorem calm_planeHolds {s t : State} (h : Calm s t) : Calm s (planeHolds t) := by
  unfold planeHolds
  try dsimp only
  repeat' first
    | exact h
    | with_reducible apply calm_endFailedPowerUp
    | split
    | with_reducible refine Calm.mk' ?_ ⟨rfl, rfl, rfl, rfl, rfl, rfl, rfl, rfl, rfl, rfl, rfl, rfl, rfl, rfl, rfl, rfl, rfl⟩

theorem calm_closeOperations {s t : State} (h : Calm s t)  : Calm s (closeOperations t ) := by
  unfold closeOperations
  try dsimp only
  repeat' first
    | exact h
    | with_reducible apply calm_tripAt
    | with_reducible apply calm_scrub
    | with_reducible apply calm_abandonOps
    | split
    | with_reducible refine Calm.mk' ?_ ⟨rfl, rfl, rfl, rfl, rfl, rfl, rfl, rfl, rfl, rfl, rfl, rfl, rfl, rfl, rfl, rfl, rfl⟩

theorem calm_fermataRecords {s t : State} (h : Calm s t) (f : Fermata) (frm dst dur : Nat) : Calm s (fermataRecords t f frm dst dur) := by
  unfold fermataRecords
  repeat' first
    | with_reducible assumption
    | (extract_lets)
    | with_reducible refine Calm.foldl ?_ _ _ fun u x m hu => ?_
    | with_reducible apply calm_noteChange
    | with_reducible apply calm_pushFault
    | with_reducible apply calm_setDet
    | with_reducible refine Calm.ite (fun _ => ?_) (fun _ => ?_)
    | split
    | with_reducible refine Calm.mk' ?_ ⟨rfl, rfl, rfl, rfl, rfl, rfl, rfl, rfl, rfl, rfl, rfl, rfl, rfl, rfl, rfl, rfl, rfl⟩
    | with_reducible refine Calm.mkZero ?_ ⟨rfl, rfl, rfl, rfl, rfl, rfl, rfl, rfl, rfl, rfl, rfl, rfl, rfl, rfl, rfl, rfl, rfl⟩

theorem calm_endFermata {s t : State} (h : Calm s t) (frm dur : Nat) : Calm s (endFermata t frm dur) := by
  unfold endFermata
  repeat' first
    | with_reducible assumption
    | (extract_lets)
    | with_reducible refine Calm.foldl ?_ _ _ fun u x m hu => ?_
    | with_reducible apply calm_fermataRecords
    | with_reducible apply calm_newStamp
    | with_reducible refine Calm.ite (fun _ => ?_) (fun _ => ?_)
    | split
    | with_reducible refine Calm.mk' ?_ ⟨rfl, rfl, rfl, rfl, rfl, rfl, rfl, rfl, rfl, rfl, rfl, rfl, rfl, rfl, rfl, rfl, rfl⟩
    | with_reducible refine Calm.mkZero ?_ ⟨rfl, rfl, rfl, rfl, rfl, rfl, rfl, rfl, rfl, rfl, rfl, rfl, rfl, rfl, rfl, rfl, rfl⟩

theorem calm_beginBar {s t : State} (h : Calm s t) (bar : BitVec 16) (first : Bool) : Calm s (beginBar t bar first) := by
  unfold beginBar
  repeat' first
    | with_reducible assumption
    | (extract_lets)
    | with_reducible refine Calm.foldl ?_ _ _ fun u x m hu => ?_
    | with_reducible apply calm_duetSlotZero
    | with_reducible apply calm_takeCodes
    | with_reducible apply calm_enterState
    | with_reducible apply calm_closeBar
    | with_reducible apply calm_touchOrigin
    | with_reducible apply calm_planeSlotZero
    | with_reducible apply calm_planeHolds
    | with_reducible apply calm_closeOperations
    | with_reducible apply calm_endFermata
    | with_reducible refine Calm.ite (fun _ => ?_) (fun _ => ?_)
    | split
    | with_reducible refine Calm.mk' ?_ ⟨rfl, rfl, rfl, rfl, rfl, rfl, rfl, rfl, rfl, rfl, rfl, rfl, rfl, rfl, rfl, rfl, rfl⟩
    | with_reducible refine Calm.mkZero ?_ ⟨rfl, rfl, rfl, rfl, rfl, rfl, rfl, rfl, rfl, rfl, rfl, rfl, rfl, rfl, rfl, rfl, rfl⟩

theorem calm_beginEntryBar {s t : State} (h : Calm s t)  : Calm s (beginEntryBar t ) := by
  unfold beginEntryBar
  repeat' first
    | with_reducible assumption
    | (extract_lets)
    | with_reducible refine Calm.foldl ?_ _ _ fun u x m hu => ?_
    | with_reducible apply calm_duetSlotZero
    | with_reducible apply calm_closeBar
    | with_reducible apply calm_closeOperations
    | with_reducible refine Calm.ite (fun _ => ?_) (fun _ => ?_)
    | split
    | with_reducible refine Calm.mk' ?_ ⟨rfl, rfl, rfl, rfl, rfl, rfl, rfl, rfl, rfl, rfl, rfl, rfl, rfl, rfl, rfl, rfl, rfl⟩
    | with_reducible refine Calm.mkZero ?_ ⟨rfl, rfl, rfl, rfl, rfl, rfl, rfl, rfl, rfl, rfl, rfl, rfl, rfl, rfl, rfl, rfl, rfl⟩

theorem calm_readPlane {s t : State} (h : Calm s t) (p : Plane) (codes : List Code) : Calm s (readPlane t p codes) := by
  unfold readPlane
  try dsimp only
  repeat' first
    | exact h
    | with_reducible apply calm_setPlane
    | split
    | with_reducible refine Calm.mk' ?_ ⟨rfl, rfl, rfl, rfl, rfl, rfl, rfl, rfl, rfl, rfl, rfl, rfl, rfl, rfl, rfl, rfl, rfl⟩

theorem calm_samplePriv {s t : State} (h : Calm s t) (pad : PadLevel) : Calm s (samplePriv t pad) := by
  unfold samplePriv
  try dsimp only
  repeat' first
    | exact h
    | with_reducible apply calm_trip
    | with_reducible apply calm_vpixOff
    | split
    | with_reducible refine Calm.mk' ?_ ⟨rfl, rfl, rfl, rfl, rfl, rfl, rfl, rfl, rfl, rfl, rfl, rfl, rfl, rfl, rfl, rfl, rfl⟩

theorem calm_applyStops {s t : State} (h : Calm s t)  : Calm s (applyStops t ) := by
  unfold applyStops
  try dsimp only
  repeat' first
    | exact h
    | with_reducible apply calm_stopPlanes
    | with_reducible apply calm_vpixOff
    | split
    | with_reducible refine Calm.mk' ?_ ⟨rfl, rfl, rfl, rfl, rfl, rfl, rfl, rfl, rfl, rfl, rfl, rfl, rfl, rfl, rfl, rfl, rfl⟩

theorem calm_markSlot {s t : State} (h : Calm s t) (marks : List Entry) : Calm s (markSlot t marks) := by
  unfold markSlot
  try dsimp only
  repeat' first
    | exact h
    | split
    | with_reducible refine Calm.mk' ?_ ⟨rfl, rfl, rfl, rfl, rfl, rfl, rfl, rfl, rfl, rfl, rfl, rfl, rfl, rfl, rfl, rfl, rfl⟩

theorem calm_beginTacetEntry {s t : State} (h : Calm s t) : Calm s (beginTacetEntry t) := by
  unfold beginTacetEntry
  repeat' first
    | with_reducible assumption
    | (extract_lets)
    | with_reducible refine Calm.foldl ?_ _ _ fun u x m hu => ?_
    | with_reducible apply calm_beginStep5
    | with_reducible apply calm_vpixOff
    | with_reducible apply calm_stopPlanes
    | with_reducible apply calm_abandonOps
    | with_reducible refine Calm.ite (fun _ => ?_) (fun _ => ?_)
    | split
    | with_reducible refine Calm.mk' ?_ ⟨rfl, rfl, rfl, rfl, rfl, rfl, rfl, rfl, rfl, rfl, rfl, rfl, rfl, rfl, rfl, rfl, rfl⟩
    | with_reducible refine Calm.mkZero ?_ ⟨rfl, rfl, rfl, rfl, rfl, rfl, rfl, rfl, rfl, rfl, rfl, rfl, rfl, rfl, rfl, rfl, rfl⟩

theorem calm_leaveForTacet {s t : State} (h : Calm s t) (f : Fermata) : Calm s (leaveForTacet t f) := by
  unfold leaveForTacet
  exact calm_beginTacetEntry (calm_fermataRecords (calm_newStamp (Calm.mk' h ⟨rfl, rfl, rfl, rfl, rfl, rfl, rfl, rfl, rfl, rfl, rfl, rfl, rfl, rfl, rfl, rfl, rfl⟩)) _ _ _ _)

theorem calm_startAtSlot445 {s t : State} (h : Calm s t) : Calm s (startAtSlot445 t) := by
  unfold startAtSlot445
  split
  · exact calm_leaveForTacet h _
  · exact calm_beginTacetEntry h
  · exact calm_takeChoice h _
  · exact h

theorem calm_endStep3 {s t : State} (h : Calm s t) : Calm s (endStep3 t) := by
  unfold endStep3
  exact (calm_discardLink h).of_le ⟨rfl, rfl, rfl, rfl, rfl, rfl, rfl, rfl⟩ (fun _ m _ => m) (fun _ m _ => absurd m (by simp [Duet.off])) (fun i => ⟨i.ram, i.otp, i.tokens, i.acc, i.full, i.ring, Nat.zero_le _, i.q0, i.q1, i.tutti, i.soli, i.slot, i.pins, i.defects⟩)

theorem calm_leaveStep3 {s t : State} (h : Calm s t) : Calm s (leaveStep3 t) := by
  unfold leaveStep3
  exact Calm.ite (fun _ => calm_enterReset h _ _) fun _ => calm_endStep3 h

theorem calm_countSlot {s t : State} (h : Calm s t) : Calm s (countSlot t) := by
  unfold countSlot
  repeat' first
    | with_reducible assumption
    | (extract_lets)
    | with_reducible refine Calm.foldl ?_ _ _ fun u x m hu => ?_
    | with_reducible apply calm_leaveStep3
    | with_reducible refine Calm.ite (fun _ => ?_) (fun _ => ?_)
    | split
    | with_reducible refine Calm.mk' ?_ ⟨rfl, rfl, rfl, rfl, rfl, rfl, rfl, rfl, rfl, rfl, rfl, rfl, rfl, rfl, rfl, rfl, rfl⟩
    | with_reducible refine Calm.mkZero ?_ ⟨rfl, rfl, rfl, rfl, rfl, rfl, rfl, rfl, rfl, rfl, rfl, rfl, rfl, rfl, rfl, rfl, rfl⟩

/-- What the Conductor and the Metronome do with failing reads is calm when their work is. -/
theorem calm_withRomErrors {s t : State} (h : Calm s t) (ups : List Upset) (act : State → State)
    (k : ∀ u v, Calm u v → Calm u (act v)) : Calm s (withRomErrors t ups act) := by
  unfold withRomErrors
  split
  · exact k s t h
  · rename_i w ws _
    have e (n : Nvm) (ho : n.otp = t.nvm.otp) : Calm s { act { t with nvm := n } with nvm := t.nvm } := by
      have c := k _ _ (Calm.refl { t with nvm := n })
      refine ⟨c.pending.trans h.pending, c.tokens.trans h.tokens, c.acc.trans h.acc, h.nvm, c.closed.trans h.closed,
        c.straps.trans h.straps, c.tempo.trans h.tempo, c.slew.trans h.slew, fun e m n => h.ring e (c.ring e m n) n,
        fun m n j => h.q3 m (c.q3 m n j) j, fun i => ?_⟩
      have j := h.inv i
      have d := c.inv ⟨j.ram, ho ▸ j.otp, j.tokens, j.acc, j.full, j.ring, j.q3, j.q0, j.q1, j.tutti, j.soli, j.slot, j.pins, j.defects⟩
      exact ⟨d.ram, j.otp, d.tokens, d.acc, d.full, d.ring, d.q3, d.q0, d.q1, d.tutti, d.soli, d.slot, d.pins, d.defects⟩
    have f : ({ (act { t with nvm := { t.nvm with failing := w :: ws } }).nvm with failing := t.nvm.failing } : Nvm) = t.nvm := by
      rw [(k _ _ (Calm.refl { t with nvm := { t.nvm with failing := w :: ws } })).nvm]
    dsimp only
    rw [f]
    refine Calm.foldl ?_ _ _ fun u x _ g => calm_eccTrip g _ _
    exact e { t.nvm with failing := w :: ws } rfl

theorem calm_startBar {s t : State} (h : Calm s t) (begins : State → State)
    (k : ∀ u v, Calm u v → Calm u (begins v)) : Calm s (startBar t begins) := by
  unfold startBar
  refine calm_withRomErrors ?_ _ _ k
  exact Calm.mk' h ⟨rfl, rfl, rfl, rfl, rfl, rfl, rfl, rfl, rfl, rfl, rfl, rfl, rfl, rfl, rfl, rfl, rfl⟩

theorem calm_sampleThermal {s t : State} (h : Calm s t) (j : Int) : Calm s (sampleThermal t j) := by
  unfold sampleThermal
  extract_lets
  rename_i u v w _
  have hu : Calm s u := Calm.mk' h ⟨rfl, rfl, rfl, rfl, rfl, rfl, rfl, rfl, rfl, rfl, rfl, rfl, rfl, rfl, rfl, rfl, rfl⟩
  have hv : Calm s v := Calm.ite (fun _ => calm_trip hu _ _ _) fun _ => hu
  clear_value v
  split
  · exact Calm.mk' (calm_trip hv _ _ _) ⟨rfl, rfl, rfl, rfl, rfl, rfl, rfl, rfl, rfl, rfl, rfl, rfl, rfl, rfl, rfl, rfl, rfl⟩
  · exact hv

theorem calm_dropDue {s t : State} (h : Calm s t) (d : Due) : Calm s (dropDue t d) := by
  unfold dropDue
  try dsimp only
  repeat' first
    | exact h
    | split
    | with_reducible refine Calm.mk' ?_ ⟨rfl, rfl, rfl, rfl, rfl, rfl, rfl, rfl, rfl, rfl, rfl, rfl, rfl, rfl, rfl, rfl, rfl⟩

theorem calm_endFixed {s t : State} (h : Calm s t) : Calm s (endFixed t) := by
  unfold endFixed
  try dsimp only
  repeat' first
    | exact h
    | with_reducible apply calm_forceTrip
    | split
    | with_reducible refine Calm.mk' ?_ ⟨rfl, rfl, rfl, rfl, rfl, rfl, rfl, rfl, rfl, rfl, rfl, rfl, rfl, rfl, rfl, rfl, rfl⟩

theorem calm_verificationTacet {s t : State} (h : Calm s t)  : Calm s (verificationTacet t ) := by
  unfold verificationTacet
  try dsimp only
  repeat' first
    | exact h
    | split
    | with_reducible refine Calm.mk' ?_ ⟨rfl, rfl, rfl, rfl, rfl, rfl, rfl, rfl, rfl, rfl, rfl, rfl, rfl, rfl, rfl, rfl, rfl⟩

theorem calm_failVerification {s t : State} (h : Calm s t) (det detail : Nat) : Calm s (failVerification t det detail) := by
  unfold failVerification
  try dsimp only
  repeat' first
    | exact h
    | with_reducible apply calm_trip
    | with_reducible apply calm_newStamp
    | with_reducible apply calm_pushFault
    | with_reducible apply calm_verificationTacet
    | split
    | with_reducible refine Calm.mk' ?_ ⟨rfl, rfl, rfl, rfl, rfl, rfl, rfl, rfl, rfl, rfl, rfl, rfl, rfl, rfl, rfl, rfl, rfl⟩

theorem calm_enterInitial {s t : State} (h : Calm s t) (exit wake : Bool) : Calm s (enterInitial t exit wake) := by
  unfold enterInitial
  repeat' first
    | with_reducible assumption
    | (extract_lets)
    | with_reducible refine Calm.foldl ?_ _ _ fun u x m hu => ?_
    | with_reducible apply calm_startRamp
    | with_reducible apply calm_setInjection
    | with_reducible apply calm_beginBar
    | with_reducible refine Calm.ite (fun _ => ?_) (fun _ => ?_)
    | split
    | with_reducible refine Calm.mk' ?_ ⟨rfl, rfl, rfl, rfl, rfl, rfl, rfl, rfl, rfl, rfl, rfl, rfl, rfl, rfl, rfl, rfl, rfl⟩
    | with_reducible refine Calm.mkZero ?_ ⟨rfl, rfl, rfl, rfl, rfl, rfl, rfl, rfl, rfl, rfl, rfl, rfl, rfl, rfl, rfl, rfl, rfl⟩

theorem calm_leaveTacet {s t : State} (h : Calm s t) (entry : Nat) : Calm s (leaveTacet t entry) := by
  unfold leaveTacet
  try dsimp only
  repeat' first
    | exact h
    | split
    | with_reducible refine Calm.mk' ?_ ⟨rfl, rfl, rfl, rfl, rfl, rfl, rfl, rfl, rfl, rfl, rfl, rfl, rfl, rfl, rfl, rfl, rfl⟩

theorem calm_takeUpset {s t : State} (h : Calm s t) (u : Upset) : Calm s (takeUpset t u) := by
  unfold takeUpset
  split
  · exact h
  · extract_lets
    split
    · exact calm_eccTrip (h.withRam _ fun k => ram_wf_upset _ _ k) _ _
    · exact calm_trip h _ _ _

theorem calm_countInjected6 {s t : State} (h : Calm s t) (n : Nat) : Calm s (countInjected6 t n) := by
  unfold countInjected6
  try dsimp only
  repeat' first
    | exact h
    | with_reducible apply calm_setDet
    | with_reducible apply calm_trip
    | split
    | with_reducible refine Calm.mk' ?_ ⟨rfl, rfl, rfl, rfl, rfl, rfl, rfl, rfl, rfl, rfl, rfl, rfl, rfl, rfl, rfl, rfl, rfl⟩

theorem calm_readErrors {s t : State} (h : Calm s t) (ws : List Nat) (ups : List Upset) : Calm s (readErrors t ws ups) := by
  unfold readErrors
  repeat' first
    | with_reducible assumption
    | (extract_lets)
    | with_reducible refine Calm.foldl ?_ _ _ fun u x m hu => ?_
    | with_reducible apply calm_eccTrip
    | with_reducible apply calm_takeUpset
    | with_reducible apply calm_countInjected6
    | with_reducible refine Calm.ite (fun _ => ?_) (fun _ => ?_)
    | split
    | with_reducible refine Calm.mk' ?_ ⟨rfl, rfl, rfl, rfl, rfl, rfl, rfl, rfl, rfl, rfl, rfl, rfl, rfl, rfl, rfl, rfl, rfl⟩
    | with_reducible refine Calm.mkZero ?_ ⟨rfl, rfl, rfl, rfl, rfl, rfl, rfl, rfl, rfl, rfl, rfl, rfl, rfl, rfl, rfl, rfl, rfl⟩

theorem calm_latchVerdict {s t : State} (h : Calm s t) (ups : List Upset) : Calm s (latchVerdict t ups) := by
  unfold latchVerdict
  repeat' first
    | with_reducible assumption
    | (extract_lets)
    | with_reducible refine Calm.foldl ?_ _ _ fun u x m hu => ?_
    | with_reducible apply calm_readErrors
    | with_reducible refine Calm.ite (fun _ => ?_) (fun _ => ?_)
    | split
    | with_reducible refine Calm.mk' ?_ ⟨rfl, rfl, rfl, rfl, rfl, rfl, rfl, rfl, rfl, rfl, rfl, rfl, rfl, rfl, rfl, rfl, rfl⟩
    | with_reducible refine Calm.mkZero ?_ ⟨rfl, rfl, rfl, rfl, rfl, rfl, rfl, rfl, rfl, rfl, rfl, rfl, rfl, rfl, rfl, rfl, rfl⟩

theorem calm_post {s t : State} (h : Calm s t) (cue inc : Nat) (ups : List Upset) : Calm s (post t cue inc ups) := by
  unfold post
  try dsimp only
  repeat' first
    | exact h
    | with_reducible apply calm_latchVerdict
    | split
    | with_reducible refine Calm.mk' ?_ ⟨rfl, rfl, rfl, rfl, rfl, rfl, rfl, rfl, rfl, rfl, rfl, rfl, rfl, rfl, rfl, rfl, rfl⟩

theorem calm_pushDiagnostics {s t : State} (h : Calm s t) (plan : Nat) : Calm s (pushDiagnostics t plan) := by
  unfold pushDiagnostics
  try dsimp only
  repeat' first
    | exact h
    | with_reducible apply calm_pushRecord
    | split
    | with_reducible refine Calm.mk' ?_ ⟨rfl, rfl, rfl, rfl, rfl, rfl, rfl, rfl, rfl, rfl, rfl, rfl, rfl, rfl, rfl, rfl, rfl⟩

theorem calm_pushPlan {s t : State} (h : Calm s t) (plan src : Nat) (stale : Bool) (v : Vector Byte 64) (present : Bool) (gest : BitVec 3) (summary : BitVec 32) : Calm s (pushPlan t plan src stale v present gest summary) := by
  unfold pushPlan
  try dsimp only
  repeat' first
    | exact h
    | with_reducible apply calm_pushRecord
    | with_reducible apply calm_pushDiagnostics
    | split
    | with_reducible refine Calm.mk' ?_ ⟨rfl, rfl, rfl, rfl, rfl, rfl, rfl, rfl, rfl, rfl, rfl, rfl, rfl, rfl, rfl, rfl, rfl⟩

theorem calm_pushFaultAt444 {s t : State} (h : Calm s t) (d : Nat) : Calm s (pushFaultAt444 t d) := by
  unfold pushFaultAt444
  try dsimp only
  repeat' first
    | exact h
    | with_reducible apply calm_setDet
    | with_reducible apply calm_trip
    | with_reducible apply calm_pushFault
    | split
    | with_reducible refine Calm.mk' ?_ ⟨rfl, rfl, rfl, rfl, rfl, rfl, rfl, rfl, rfl, rfl, rfl, rfl, rfl, rfl, rfl, rfl, rfl⟩

theorem calm_pushFaults {s t : State} (h : Calm s t) (capStarts complete : Bool) : Calm s (pushFaults t capStarts complete) := by
  unfold pushFaults
  repeat' first
    | with_reducible assumption
    | (extract_lets)
    | with_reducible refine Calm.foldl ?_ _ _ fun u x m hu => ?_
    | with_reducible apply calm_pushFaultAt444
    | with_reducible refine Calm.ite (fun _ => ?_) (fun _ => ?_)
    | split
    | with_reducible refine Calm.mk' ?_ ⟨rfl, rfl, rfl, rfl, rfl, rfl, rfl, rfl, rfl, rfl, rfl, rfl, rfl, rfl, rfl, rfl, rfl⟩
    | with_reducible refine Calm.mkZero ?_ ⟨rfl, rfl, rfl, rfl, rfl, rfl, rfl, rfl, rfl, rfl, rfl, rfl, rfl, rfl, rfl, rfl, rfl⟩

theorem calm_countStale {s t : State} (h : Calm s t) : Calm s (countStale t) := by
  unfold countStale
  try dsimp only
  repeat' first
    | exact h
    | split
    | with_reducible refine Calm.mk' ?_ ⟨rfl, rfl, rfl, rfl, rfl, rfl, rfl, rfl, rfl, rfl, rfl, rfl, rfl, rfl, rfl, rfl, rfl⟩

theorem calm_fallBack {s t : State} (h : Calm s t) : Calm s (fallBack t) := by
  unfold fallBack
  try dsimp only
  repeat' first
    | exact h
    | with_reducible apply calm_countStale
    | split
    | with_reducible refine Calm.mk' ?_ ⟨rfl, rfl, rfl, rfl, rfl, rfl, rfl, rfl, rfl, rfl, rfl, rfl, rfl, rfl, rfl, rfl, rfl⟩

theorem calm_applyPins {s t : State} (h : Calm s t) (fresh : Bool) (v : Vector Byte 64) (summary : BitVec 32) : Calm s (applyPins t fresh v summary) := by
  unfold applyPins
  repeat' first
    | with_reducible assumption
    | (extract_lets)
    | with_reducible apply calm_fallBack
    | with_reducible refine Calm.ite (fun _ => ?_) (fun _ => ?_)
    | with_reducible refine Calm.mk' ?_ ⟨rfl, rfl, rfl, rfl, rfl, rfl, rfl, rfl, rfl, rfl, rfl, rfl, rfl, rfl, rfl, rfl, rfl⟩

theorem calm_applyTouch {s t : State} (h : Calm s t) (hold : Bool) : Calm s (applyTouch t hold) := by
  unfold applyTouch
  try dsimp only
  repeat' first
    | exact h
    | split
    | with_reducible refine Calm.mk' ?_ ⟨rfl, rfl, rfl, rfl, rfl, rfl, rfl, rfl, rfl, rfl, rfl, rfl, rfl, rfl, rfl, rfl, rfl⟩

theorem calm_setExposures {s t : State} (h : Calm s t) (st : Nat) (ups : List Upset) : Calm s (setExposures t st ups) := by
  unfold setExposures
  repeat' first
    | with_reducible assumption
    | (extract_lets)
    | with_reducible refine Calm.foldl ?_ _ _ fun u x m hu => ?_
    | with_reducible apply calm_readErrors
    | with_reducible refine Calm.ite (fun _ => ?_) (fun _ => ?_)
    | split
    | with_reducible refine Calm.mk' ?_ ⟨rfl, rfl, rfl, rfl, rfl, rfl, rfl, rfl, rfl, rfl, rfl, rfl, rfl, rfl, rfl, rfl, rfl⟩
    | with_reducible refine Calm.mkZero ?_ ⟨rfl, rfl, rfl, rfl, rfl, rfl, rfl, rfl, rfl, rfl, rfl, rfl, rfl, rfl, rfl, rfl, rfl⟩

theorem calm_wakeAction {s t : State} (h : Calm s t) (v : Vector Byte 64) : Calm s (wakeAction t v) := by
  unfold wakeAction
  try dsimp only
  repeat' first
    | exact h
    | with_reducible apply calm_pushQ3
    | split
    | with_reducible refine Calm.mk' ?_ ⟨rfl, rfl, rfl, rfl, rfl, rfl, rfl, rfl, rfl, rfl, rfl, rfl, rfl, rfl, rfl, rfl, rfl⟩

theorem calm_swapAction {s t : State} (h : Calm s t) (v : Vector Byte 64) : Calm s (swapAction t v) := by
  unfold swapAction
  try dsimp only
  repeat' first
    | exact h
    | with_reducible apply calm_pushQ3
    | split
    | with_reducible refine Calm.mk' ?_ ⟨rfl, rfl, rfl, rfl, rfl, rfl, rfl, rfl, rfl, rfl, rfl, rfl, rfl, rfl, rfl, rfl, rfl⟩

theorem calm_verdictFrame {s t : State} (h : Calm s t) (fresh : Bool) (v : Vector Byte 64) (summary : BitVec 32) : Calm s (verdictFrame t fresh v summary) := by
  unfold verdictFrame
  try dsimp only
  repeat' first
    | exact h
    | with_reducible apply calm_pushQ3
    | split
    | with_reducible refine Calm.mk' ?_ ⟨rfl, rfl, rfl, rfl, rfl, rfl, rfl, rfl, rfl, rfl, rfl, rfl, rfl, rfl, rfl, rfl, rfl⟩

theorem calm_pushChanges {s t : State} (h : Calm s t) (startEnds : Bool) (chosen : PState) : Calm s (pushChanges t startEnds chosen) := by
  unfold pushChanges
  repeat' first
    | with_reducible assumption
    | (extract_lets)
    | with_reducible refine Calm.foldl ?_ _ _ fun u x m hu => ?_
    | with_reducible apply calm_pushChange
    | with_reducible refine Calm.ite (fun _ => ?_) (fun _ => ?_)
    | split
    | with_reducible refine Calm.mk' ?_ ⟨rfl, rfl, rfl, rfl, rfl, rfl, rfl, rfl, rfl, rfl, rfl, rfl, rfl, rfl, rfl, rfl, rfl⟩
    | with_reducible refine Calm.mkZero ?_ ⟨rfl, rfl, rfl, rfl, rfl, rfl, rfl, rfl, rfl, rfl, rfl, rfl, rfl, rfl, rfl, rfl, rfl⟩

theorem calm_tacetValues {s t : State} (h : Calm s t)  : Calm s (tacetValues t ) := by
  unfold tacetValues
  try dsimp only
  repeat' first
    | exact h
    | split
    | with_reducible refine Calm.mk' ?_ ⟨rfl, rfl, rfl, rfl, rfl, rfl, rfl, rfl, rfl, rfl, rfl, rfl, rfl, rfl, rfl, rfl, rfl⟩

theorem calm_actVerdict {s t : State} (h : Calm s t) (v : Vector Byte 64) : Calm s (actVerdict t v) := by
  unfold actVerdict
  try dsimp only
  repeat' first
    | exact h
    | with_reducible apply calm_swapAction
    | with_reducible apply calm_wakeAction
    | split
    | with_reducible refine Calm.mk' ?_ ⟨rfl, rfl, rfl, rfl, rfl, rfl, rfl, rfl, rfl, rfl, rfl, rfl, rfl, rfl, rfl, rfl, rfl⟩

theorem calm_pushPlans {s t : State} (h : Calm s t) (src : Nat) (stale : Bool) (v : Vector Byte 64) (present : Bool) (gest : BitVec 3) (summary : BitVec 32) : Calm s (pushPlans t src stale v present gest summary) := by
  unfold pushPlans
  repeat' first
    | with_reducible assumption
    | (extract_lets)
    | with_reducible refine Calm.foldl ?_ _ _ fun u x m hu => ?_
    | with_reducible apply calm_pushPlan
    | with_reducible refine Calm.ite (fun _ => ?_) (fun _ => ?_)
    | split
    | with_reducible refine Calm.mk' ?_ ⟨rfl, rfl, rfl, rfl, rfl, rfl, rfl, rfl, rfl, rfl, rfl, rfl, rfl, rfl, rfl, rfl, rfl⟩
    | with_reducible refine Calm.mkZero ?_ ⟨rfl, rfl, rfl, rfl, rfl, rfl, rfl, rfl, rfl, rfl, rfl, rfl, rfl, rfl, rfl, rfl, rfl⟩

theorem calm_pushPartners {s t : State} (h : Calm s t) (inStart stale : Bool) : Calm s (pushPartners t inStart stale) := by
  unfold pushPartners
  refine Calm.ite (fun _ => Calm.foldl ?_ _ _ fun u x _ g => calm_enqueue g _ _ _ _) fun _ => h
  exact Calm.mk' h ⟨rfl, rfl, rfl, rfl, rfl, rfl, rfl, rfl, rfl, rfl, rfl, rfl, rfl, rfl, rfl, rfl, rfl⟩

theorem calm_noteChoice {s t : State} (h : Calm s t) (chosen : PState) : Calm s (noteChoice t chosen) := by
  unfold noteChoice
  try dsimp only
  repeat' first
    | exact h
    | split
    | with_reducible refine Calm.mk' ?_ ⟨rfl, rfl, rfl, rfl, rfl, rfl, rfl, rfl, rfl, rfl, rfl, rfl, rfl, rfl, rfl, rfl, rfl⟩

theorem calm_engWrite {s t : State} (h : Calm s t) (a : Nat) (bs : List Byte) : Calm s (engWrite t a bs) := by
  unfold engWrite
  refine Calm.foldl h _ _ fun u x m g => ?_
  split
  · exact g.of_le ⟨rfl, rfl, rfl, rfl, rfl, rfl, rfl, rfl⟩ (fun _ m _ => m) (fun _ m _ => m) (fun i => ⟨ram_wf_store _ _ _ (mem_byWord _ _ _ m) i.ram, i.otp, i.tokens, i.acc, i.full, i.ring, i.q3, i.q0, i.q1, i.tutti, i.soli, i.slot, i.pins, i.defects⟩)
  · exact g

theorem calm_popEntry {s t : State} (h : Calm s t)  : Calm s (popEntry t ) := by
  unfold popEntry
  try dsimp only
  repeat' first
    | exact h
    | split
    | with_reducible refine Calm.mk' ?_ ⟨rfl, rfl, rfl, rfl, rfl, rfl, rfl, rfl, rfl, rfl, rfl, rfl, rfl, rfl, rfl, rfl, rfl⟩

theorem calm_startKernel {s t : State} (h : Calm s t) (index : Nat) (cs : List Ctx) (k : t.exec.soli.length < 8) : Calm s (startKernel t index cs) := by
  unfold startKernel
  exact h.of_le ⟨rfl, rfl, rfl, rfl, rfl, rfl, rfl, rfl⟩ (fun _ m _ => m) (fun _ m _ => m) (fun i => ⟨i.ram, i.otp, i.tokens, i.acc, i.full, i.ring, i.q3, i.q0, i.q1, i.tutti, by simp only [List.length_append, List.length_singleton]; omega, i.slot, i.pins, i.defects⟩)

theorem calm_postSync {s t : State} (h : Calm s t) (off : Nat) (ups : List Upset) : Calm s (postSync t off ups) := by
  unfold postSync
  try dsimp only
  repeat' first
    | exact h
    | with_reducible apply calm_post
    | split
    | with_reducible refine Calm.mk' ?_ ⟨rfl, rfl, rfl, rfl, rfl, rfl, rfl, rfl, rfl, rfl, rfl, rfl, rfl, rfl, rfl, rfl, rfl⟩

theorem calm_retireSoli {s t : State} (h : Calm s t) (o : SoliOp) : Calm s (retireSoli t o) := by
  unfold retireSoli
  exact h.of_le ⟨rfl, rfl, rfl, rfl, rfl, rfl, rfl, rfl⟩ (fun _ m _ => m) (fun _ m _ => m) (fun i => ⟨i.ram, i.otp, i.tokens, i.acc, i.full, i.ring, i.q3, i.q0, i.q1, i.tutti, (List.length_filter_le _ _).trans i.soli, i.slot, i.pins, i.defects⟩)

theorem calm_opUpsets {s t : State} (h : Calm s t) (ups : List Upset) : Calm s (opUpsets t ups).1 := by
  unfold opUpsets
  dsimp only
  suffices k : ∀ (p : State × Bool), Calm s p.1 → Calm s (ups.foldl (fun (p : State × Bool) u =>
      if inRom u.addr then
        if u.multi then (eccTrip p.1 8 (u.addr / 8 * 8), true) else p
      else
        let t := takeUpset p.1 u
        (t, p.2 || (u.multi && inRam u.addr && p.1.ram.flags.contains (u.addr / 8)))) p).1 from k _ (calm_countInjected6 h _)
  induction ups with
  | nil => exact fun p hp => hp
  | cons u r ih =>
    intro p hp
    rw [List.foldl_cons]
    apply ih
    split
    · split
      · exact calm_eccTrip (t := p.1) hp 8 (u.addr / 8 * 8)
      · exact hp
    · exact calm_takeUpset (t := p.1) hp u

theorem calm_completeHelper {s t : State} (h : Calm s t) (kind : Nat) (ups : List Upset) (work : State → Nat → State) (k : ∀ u n, Calm s u → Calm s (work u n)) : Calm s (completeHelper t kind ups work) := by
  unfold completeHelper
  split
  · split
    · exact h
    · have e := calm_opUpsets h ups
      revert e
      generalize opUpsets t ups = p
      intro e
      obtain ⟨u, failed⟩ := p
      dsimp only
      split
      · exact e
      · exact calm_postSync (calm_retireSoli (k _ _ e) _) _ _
  · exact h

theorem calm_noteTile {s t : State} (h : Calm s t) (a old new : Nat) : Calm s (noteTile t a old new) := by
  unfold noteTile
  repeat' first
    | with_reducible assumption
    | (extract_lets)
    | with_reducible refine Calm.foldl ?_ _ _ fun u x m hu => ?_
    | with_reducible refine Calm.ite (fun _ => ?_) (fun _ => ?_)
    | split
    | with_reducible refine Calm.mk' ?_ ⟨rfl, rfl, rfl, rfl, rfl, rfl, rfl, rfl, rfl, rfl, rfl, rfl, rfl, rfl, rfl, rfl, rfl⟩
    | with_reducible refine Calm.mkZero ?_ ⟨rfl, rfl, rfl, rfl, rfl, rfl, rfl, rfl, rfl, rfl, rfl, rfl, rfl, rfl, rfl, rfl, rfl⟩

theorem calm_writeCode {s t : State} (h : Calm s t) (a v : Nat) : Calm s (writeCode t a v) := by
  unfold writeCode
  repeat' first
    | with_reducible assumption
    | (extract_lets)
    | with_reducible refine Calm.foldl ?_ _ _ fun u x m hu => ?_
    | with_reducible apply calm_engWrite
    | with_reducible apply calm_noteTile
    | with_reducible refine Calm.ite (fun _ => ?_) (fun _ => ?_)
    | split
    | with_reducible refine Calm.mk' ?_ ⟨rfl, rfl, rfl, rfl, rfl, rfl, rfl, rfl, rfl, rfl, rfl, rfl, rfl, rfl, rfl, rfl, rfl⟩
    | with_reducible refine Calm.mkZero ?_ ⟨rfl, rfl, rfl, rfl, rfl, rfl, rfl, rfl, rfl, rfl, rfl, rfl, rfl, rfl, rfl, rfl, rfl⟩

theorem calm_writePosition {s t : State} (h : Calm s t) (d : Desc) (oy ox : Nat) (outs : List (Nat × Out)) : Calm s (writePosition t d oy ox outs) := by
  unfold writePosition
  repeat' first
    | with_reducible assumption
    | (extract_lets)
    | with_reducible refine Calm.foldl ?_ _ _ fun u x m hu => ?_
    | with_reducible apply calm_writeCode
    | with_reducible refine Calm.ite (fun _ => ?_) (fun _ => ?_)
    | split
    | with_reducible refine Calm.mk' ?_ ⟨rfl, rfl, rfl, rfl, rfl, rfl, rfl, rfl, rfl, rfl, rfl, rfl, rfl, rfl, rfl, rfl, rfl⟩
    | with_reducible refine Calm.mkZero ?_ ⟨rfl, rfl, rfl, rfl, rfl, rfl, rfl, rfl, rfl, rfl, rfl, rfl, rfl, rfl, rfl, rfl, rfl⟩

theorem calm_writeWide {s t : State} (h : Calm s t) (d : Desc) (oy ox : Nat) (outs : List (Nat × Out)) : Calm s (writeWide t d oy ox outs) := by
  unfold writeWide
  repeat' first
    | with_reducible assumption
    | (extract_lets)
    | with_reducible refine Calm.foldl ?_ _ _ fun u x m hu => ?_
    | with_reducible apply calm_engWrite
    | with_reducible refine Calm.ite (fun _ => ?_) (fun _ => ?_)
    | split
    | with_reducible refine Calm.mk' ?_ ⟨rfl, rfl, rfl, rfl, rfl, rfl, rfl, rfl, rfl, rfl, rfl, rfl, rfl, rfl, rfl, rfl, rfl⟩
    | with_reducible refine Calm.mkZero ?_ ⟨rfl, rfl, rfl, rfl, rfl, rfl, rfl, rfl, rfl, rfl, rfl, rfl, rfl, rfl, rfl, rfl, rfl⟩

theorem calm_writePsums {s t : State} (h : Calm s t) (d : Desc) (oy ox : Nat) (accs : List (Nat × Int)) : Calm s (writePsums t d oy ox accs) := by
  unfold writePsums
  repeat' first
    | with_reducible assumption
    | (extract_lets)
    | with_reducible refine Calm.foldl ?_ _ _ fun u x m hu => ?_
    | with_reducible apply calm_engWrite
    | with_reducible refine Calm.ite (fun _ => ?_) (fun _ => ?_)
    | split
    | with_reducible refine Calm.mk' ?_ ⟨rfl, rfl, rfl, rfl, rfl, rfl, rfl, rfl, rfl, rfl, rfl, rfl, rfl, rfl, rfl, rfl, rfl⟩
    | with_reducible refine Calm.mkZero ?_ ⟨rfl, rfl, rfl, rfl, rfl, rfl, rfl, rfl, rfl, rfl, rfl, rfl, rfl, rfl, rfl, rfl, rfl⟩

theorem calm_writeSlot {s t : State} (h : Calm s t) (d : Desc) (cb oy ox : Nat) (codes : List (Nat × Nat)) : Calm s (writeSlot t d cb oy ox codes) := by
  unfold writeSlot
  try dsimp only
  repeat' first
    | exact h
    | with_reducible apply calm_engWrite
    | split
    | with_reducible refine Calm.mk' ?_ ⟨rfl, rfl, rfl, rfl, rfl, rfl, rfl, rfl, rfl, rfl, rfl, rfl, rfl, rfl, rfl, rfl, rfl⟩

theorem calm_setSection {s t : State} (h : Calm s t) (c : Ctx) (x : Section) : Calm s (State.setSection t c x) := by
  unfold State.setSection
  try dsimp only
  repeat' first
    | exact h
    | split
    | with_reducible refine Calm.mk' ?_ ⟨rfl, rfl, rfl, rfl, rfl, rfl, rfl, rfl, rfl, rfl, rfl, rfl, rfl, rfl, rfl, rfl, rfl⟩

theorem calm_writeReg {s t : State} (h : Calm s t) (c : Ctx) (x : Section) (g : Guard) (d : Reg) (f : Fin 16 → Lane → Word) : Calm s (writeReg t c x g d f) := by
  unfold writeReg
  try dsimp only
  repeat' first
    | exact h
    | with_reducible apply calm_setSection
    | split
    | with_reducible refine Calm.mk' ?_ ⟨rfl, rfl, rfl, rfl, rfl, rfl, rfl, rfl, rfl, rfl, rfl, rfl, rfl, rfl, rfl, rfl, rfl⟩

theorem calm_writePred {s t : State} (h : Calm s t) (c : Ctx) (x : Section) (g : Guard) (d : BitVec 3) (f : Lane → Bool) : Calm s (writePred t c x g d f) := by
  unfold writePred
  try dsimp only
  repeat' first
    | exact h
    | with_reducible apply calm_setSection
    | split
    | with_reducible refine Calm.mk' ?_ ⟨rfl, rfl, rfl, rfl, rfl, rfl, rfl, rfl, rfl, rfl, rfl, rfl, rfl, rfl, rfl, rfl, rfl⟩

theorem calm_romErrors {s t : State} (h : Calm s t) (ws : List Nat) (ups : List Upset) : Calm s (romErrors t ws ups) := by
  unfold romErrors
  repeat' first
    | with_reducible assumption
    | (extract_lets)
    | with_reducible refine Calm.foldl ?_ _ _ fun u x m hu => ?_
    | with_reducible apply calm_eccTrip
    | with_reducible refine Calm.ite (fun _ => ?_) (fun _ => ?_)
    | split
    | with_reducible refine Calm.mk' ?_ ⟨rfl, rfl, rfl, rfl, rfl, rfl, rfl, rfl, rfl, rfl, rfl, rfl, rfl, rfl, rfl, rfl, rfl⟩
    | with_reducible refine Calm.mkZero ?_ ⟨rfl, rfl, rfl, rfl, rfl, rfl, rfl, rfl, rfl, rfl, rfl, rfl, rfl, rfl, rfl, rfl, rfl⟩

theorem leBytes_length : ∀ n v : Nat, (leBytes n v).length = n
  | 0, _ => rfl
  | n + 1, v => by rw [leBytes, List.length_cons, leBytes_length]

theorem calm_storeLane {s t : State} (h : Calm s t) (addr size : Nat) (v : Word) (k : size ∣ 8) : Calm s (storeLane t addr size v) := by
  unfold storeLane
  split
  · rename_i c
    simp only [Bool.and_eq_true, decide_eq_true_eq] at c
    refine h.withRam _ fun w => ram_wf_store _ _ _ (fun x hx => ?_) w
    obtain ⟨i, hi, rfl⟩ := List.mem_mapIdx.1 hx
    rw [leBytes_length] at hi
    obtain ⟨m, rfl⟩ := Nat.dvd_of_mod_eq_zero c.1
    obtain ⟨n, e⟩ := k
    have hn : 0 < n := Nat.pos_of_ne_zero (by rintro rfl; simp at e)
    show (size * m + i) / 8 = size * m / 8
    rw [e, ← Nat.div_div_eq_div_mul, ← Nat.div_div_eq_div_mul, Nat.mul_add_div (by omega), Nat.div_eq_of_lt hi,
      Nat.mul_div_cancel_left _ (by omega), Nat.add_zero]
  · exact h

theorem calm_runCrop {s t : State} (h : Calm s t) (o : Nat) : Calm s (runCrop t o) := by
  unfold runCrop
  repeat' first
    | with_reducible assumption
    | (extract_lets)
    | with_reducible refine Calm.foldl ?_ _ _ fun u x m hu => ?_
    | with_reducible apply calm_engWrite
    | with_reducible refine Calm.ite (fun _ => ?_) (fun _ => ?_)
    | split
    | with_reducible refine Calm.mk' ?_ ⟨rfl, rfl, rfl, rfl, rfl, rfl, rfl, rfl, rfl, rfl, rfl, rfl, rfl, rfl, rfl, rfl, rfl⟩
    | with_reducible refine Calm.mkZero ?_ ⟨rfl, rfl, rfl, rfl, rfl, rfl, rfl, rfl, rfl, rfl, rfl, rfl, rfl, rfl, rfl, rfl, rfl⟩

theorem calm_runSieve {s t : State} (h : Calm s t) (o : Nat) : Calm s (runSieve t o) := by
  unfold runSieve
  repeat' first
    | with_reducible assumption
    | (extract_lets)
    | with_reducible refine Calm.foldl ?_ _ _ fun u x m hu => ?_
    | with_reducible apply calm_engWrite
    | with_reducible refine Calm.ite (fun _ => ?_) (fun _ => ?_)
    | split
    | with_reducible refine Calm.mk' ?_ ⟨rfl, rfl, rfl, rfl, rfl, rfl, rfl, rfl, rfl, rfl, rfl, rfl, rfl, rfl, rfl, rfl, rfl⟩
    | with_reducible refine Calm.mkZero ?_ ⟨rfl, rfl, rfl, rfl, rfl, rfl, rfl, rfl, rfl, rfl, rfl, rfl, rfl, rfl, rfl, rfl, rfl⟩

theorem calm_writeStore {s t : State} (h : Calm s t) (a : Attention) : Calm s (writeStore t a) := by
  unfold writeStore
  repeat' first
    | with_reducible assumption
    | (extract_lets)
    | with_reducible refine Calm.foldl ?_ _ _ fun u x m hu => ?_
    | with_reducible apply calm_engWrite
    | with_reducible refine Calm.ite (fun _ => ?_) (fun _ => ?_)
    | split
    | with_reducible refine Calm.mk' ?_ ⟨rfl, rfl, rfl, rfl, rfl, rfl, rfl, rfl, rfl, rfl, rfl, rfl, rfl, rfl, rfl, rfl, rfl⟩
    | with_reducible refine Calm.mkZero ?_ ⟨rfl, rfl, rfl, rfl, rfl, rfl, rfl, rfl, rfl, rfl, rfl, rfl, rfl, rfl, rfl, rfl, rfl⟩

theorem calm_runAttention {s t : State} (h : Calm s t) (o : Nat) : Calm s (runAttention t o) := by
  unfold runAttention
  repeat' first
    | with_reducible assumption
    | (extract_lets)
    | with_reducible refine Calm.foldl ?_ _ _ fun u x m hu => ?_
    | with_reducible apply calm_engWrite
    | with_reducible apply calm_writeStore
    | with_reducible refine Calm.ite (fun _ => ?_) (fun _ => ?_)
    | split
    | with_reducible refine Calm.mk' ?_ ⟨rfl, rfl, rfl, rfl, rfl, rfl, rfl, rfl, rfl, rfl, rfl, rfl, rfl, rfl, rfl, rfl, rfl⟩
    | with_reducible refine Calm.mkZero ?_ ⟨rfl, rfl, rfl, rfl, rfl, rfl, rfl, rfl, rfl, rfl, rfl, rfl, rfl, rfl, rfl, rfl, rfl⟩

theorem calm_dropFrame {s t : State} (h : Calm s t) (e : FrameError) (inj : Bool) : Calm s (dropFrame t e inj) := by
  unfold dropFrame
  try dsimp only
  repeat' first
    | exact h
    | with_reducible apply calm_trip
    | split
    | with_reducible refine Calm.mk' ?_ ⟨rfl, rfl, rfl, rfl, rfl, rfl, rfl, rfl, rfl, rfl, rfl, rfl, rfl, rfl, rfl, rfl, rfl⟩

theorem calm_takeAck {s t : State} (h : Calm s t) (f : FrameBytes) : Calm s (takeAck t f) := by
  unfold takeAck
  try dsimp only
  repeat' first
    | exact h
    | split
    | with_reducible refine Calm.mk' ?_ ⟨rfl, rfl, rfl, rfl, rfl, rfl, rfl, rfl, rfl, rfl, rfl, rfl, rfl, rfl, rfl, rfl, rfl⟩

theorem calm_leaderLoop {s t : State} (h : Calm s t) (f : FrameBytes) (time : HeartbeatTime) : Calm s (leaderLoop t f time) := by
  unfold leaderLoop
  try dsimp only
  repeat' first
    | exact h
    | split
    | with_reducible refine Calm.mk' ?_ ⟨rfl, rfl, rfl, rfl, rfl, rfl, rfl, rfl, rfl, rfl, rfl, rfl, rfl, rfl, rfl, rfl, rfl⟩

theorem calm_takeLink {s t : State} (h : Calm s t) (f : FrameBytes) (time : HeartbeatTime) : Calm s (takeLink t f time) := by
  unfold takeLink
  repeat' first
    | with_reducible assumption
    | (extract_lets)
    | with_reducible refine Calm.foldl ?_ _ _ fun u x m hu => ?_
    | with_reducible apply calm_linkDown
    | with_reducible apply calm_leaderLoop
    | with_reducible apply calm_takeAck
    | with_reducible refine Calm.ite (fun _ => ?_) (fun _ => ?_)
    | split
    | with_reducible refine Calm.mk' ?_ ⟨rfl, rfl, rfl, rfl, rfl, rfl, rfl, rfl, rfl, rfl, rfl, rfl, rfl, rfl, rfl, rfl, rfl⟩
    | with_reducible refine Calm.mkZero ?_ ⟨rfl, rfl, rfl, rfl, rfl, rfl, rfl, rfl, rfl, rfl, rfl, rfl, rfl, rfl, rfl, rfl, rfl⟩

theorem calm_alignLoop {s t : State} (h : Calm s t) (tl : Int) (barno : BitVec 16) : Calm s (alignLoop t tl barno) := by
  unfold alignLoop
  try dsimp only
  repeat' first
    | exact h
    | split
    | with_reducible refine Calm.mk' ?_ ⟨rfl, rfl, rfl, rfl, rfl, rfl, rfl, rfl, rfl, rfl, rfl, rfl, rfl, rfl, rfl, rfl, rfl⟩

theorem calm_followBar {s t : State} (h : Calm s t) (f : FrameBytes) (arrival : Int) : Calm s (followBar t f arrival) := by
  unfold followBar
  repeat' first
    | with_reducible assumption
    | (extract_lets)
    | with_reducible refine Calm.foldl ?_ _ _ fun u x m hu => ?_
    | with_reducible refine calm_startBar ?_ _ fun u v hu => ?_
    | with_reducible apply calm_beginBar
    | with_reducible apply calm_alignLoop
    | with_reducible refine Calm.ite (fun _ => ?_) (fun _ => ?_)
    | split
    | with_reducible refine Calm.mk' ?_ ⟨rfl, rfl, rfl, rfl, rfl, rfl, rfl, rfl, rfl, rfl, rfl, rfl, rfl, rfl, rfl, rfl, rfl⟩
    | with_reducible refine Calm.mkZero ?_ ⟨rfl, rfl, rfl, rfl, rfl, rfl, rfl, rfl, rfl, rfl, rfl, rfl, rfl, rfl, rfl, rfl, rfl⟩

theorem calm_followHeartbeat {s t : State} (h : Calm s t) : Calm s (followHeartbeat t) := by
  unfold followHeartbeat
  repeat' first
    | with_reducible assumption
    | (extract_lets)
    | with_reducible refine Calm.foldl ?_ _ _ fun u x m hu => ?_
    | with_reducible refine calm_startBar ?_ _ fun u v hu => ?_
    | with_reducible apply calm_beginBar
    | with_reducible refine Calm.ite (fun _ => ?_) (fun _ => ?_)
    | split
    | with_reducible refine Calm.mk' ?_ ⟨rfl, rfl, rfl, rfl, rfl, rfl, rfl, rfl, rfl, rfl, rfl, rfl, rfl, rfl, rfl, rfl, rfl⟩
    | with_reducible refine Calm.mkZero ?_ ⟨rfl, rfl, rfl, rfl, rfl, rfl, rfl, rfl, rfl, rfl, rfl, rfl, rfl, rfl, rfl, rfl, rfl⟩

theorem calm_takeMessage {s t : State} (h : Calm s t) (f : FrameBytes) (act : State → State) (k : ∀ u, Calm s u → Calm s (act u)) : Calm s (takeMessage t f act) := by
  unfold takeMessage
  have hu := calm_takeAck h f
  dsimp only
  split
  · exact Calm.mk' h ⟨rfl, rfl, rfl, rfl, rfl, rfl, rfl, rfl, rfl, rfl, rfl, rfl, rfl, rfl, rfl, rfl, rfl⟩
  · split
    · exact Calm.mk' hu ⟨rfl, rfl, rfl, rfl, rfl, rfl, rfl, rfl, rfl, rfl, rfl, rfl, rfl, rfl, rfl, rfl, rfl⟩
    · exact k _ (Calm.mk' hu ⟨rfl, rfl, rfl, rfl, rfl, rfl, rfl, rfl, rfl, rfl, rfl, rfl, rfl, rfl, rfl, rfl, rfl⟩)

theorem calm_sendMessage {s t : State} (h : Calm s t) (m : Msg) (rest : List Msg) (k : rest.Sublist t.duet.q3) : Calm s (sendMessage t m rest) := by
  unfold sendMessage
  extract_lets
  rename_i u
  have hu : Calm s u := h.of_le ⟨rfl, rfl, rfl, rfl, rfl, rfl, rfl, rfl⟩ (fun _ m _ => m) (fun _ m _ => k.subset m) (fun i => ⟨i.ram, i.otp, i.tokens, i.acc, i.full, i.ring, k.length_le.trans i.q3, i.q0, i.q1, i.tutti, i.soli, i.slot, i.pins, i.defects⟩)
  exact Calm.ite (fun _ => calm_leaveStep3 hu) fun _ => hu

theorem calm_respond {s t : State} (h : Calm s t) (x : Status) (bs : List Byte) : Calm s (respond t x bs) := by
  unfold respond
  try dsimp only
  repeat' first
    | exact h
    | split
    | with_reducible refine Calm.mk' ?_ ⟨rfl, rfl, rfl, rfl, rfl, rfl, rfl, rfl, rfl, rfl, rfl, rfl, rfl, rfl, rfl, rfl, rfl⟩

end Sys2Proof.Laws
end

