-- ==== Sys2Proof/Laws/Engines.lean ====
section
/-!
SUPPORT. What the engines change: a data write changes memory, a Tutti descriptor memory and the tile sums, a crop or sieve job memory, an
attention job memory and the counts of rested positions.
-/
namespace Sys2Proof.Laws

open Sys2Proof.Machine

/-- Nothing but memory and the tile sums has changed. -/
def Tallied (s t : State) : Prop := t = { s with ram := t.ram, exec := { s.exec with tiles := t.exec.tiles } }

/-- Nothing but memory has changed. -/
def Stored (s t : State) : Prop := t = { s with ram := t.ram }

theorem Tallied.refl (s : State) : Tallied s s := rfl

theorem Tallied.trans {s t u : State} (a : Tallied s t) (b : Tallied t u) : Tallied s u := by
  unfold Tallied at *
  rw [b, a]

theorem Stored.refl (s : State) : Stored s s := rfl

theorem Stored.trans {s t u : State} (a : Stored s t) (b : Stored t u) : Stored s u := by
  unfold Stored at *
  rw [b, a]

theorem Stored.tallied {s t : State} (a : Stored s t) : Tallied s t := by
  unfold Stored Tallied at *
  rw [a]

theorem Tallied.foldl {α : Type} {s t : State} (f : State → α → State) (l : List α) (k : ∀ u x, Tallied u (f u x)) (h : Tallied s t) :
    Tallied s (l.foldl f t) := by
  induction l generalizing t with
  | nil => exact h
  | cons a l ih => exact ih (h.trans (k t a))

theorem Stored.foldl {α : Type} {s t : State} (f : State → α → State) (l : List α) (k : ∀ u x, Stored u (f u x)) (h : Stored s t) :
    Stored s (l.foldl f t) := by
  induction l generalizing t with
  | nil => exact h
  | cons a l ih => exact ih (h.trans (k t a))

theorem stored_engWrite (s : State) (a : Nat) (bs : List Byte) : Stored s (engWrite s a bs) := by
  unfold engWrite
  refine Stored.foldl _ _ (fun u x => ?_) (Stored.refl s)
  split <;> rfl

theorem tallied_noteTile (s : State) (a old new : Nat) : Tallied s (noteTile s a old new) := by
  unfold noteTile
  dsimp only
  repeat' split
  all_goals rfl

theorem tallied_writeCode (s : State) (a v : Nat) : Tallied s (writeCode s a v) := by
  unfold writeCode
  split
  · exact (stored_engWrite s a _).tallied.trans (tallied_noteTile _ _ _ _)
  · rfl

theorem tallied_writePosition (s : State) (d : Desc) (oy ox : Nat) (outs : List (Nat × Out)) : Tallied s (writePosition s d oy ox outs) := by
  unfold writePosition
  extract_lets size addr t last
  have h : Tallied s t := Tallied.foldl (fun s (o : Nat × Out) => writeCode s (d.outBase + tensorOff d.dst d.oh d.ow o.1 oy ox) o.2.code) outs
    (fun u x => tallied_writeCode u _ _) (Tallied.refl s)
  by_cases c : last / size = (d.oc - 1) / size
  all_goals first | rw [if_pos c] | rw [if_neg c]
  · exact Tallied.foldl _ _ (fun u x => tallied_writeCode u _ _) h
  · exact h

theorem stored_writeWide (s : State) (d : Desc) (oy ox : Nat) (outs : List (Nat × Out)) : Stored s (writeWide s d oy ox outs) := by
  unfold writeWide
  refine Stored.foldl _ _ (fun u x => ?_) (Stored.refl s)
  split
  · exact stored_engWrite _ _ _
  · rfl

theorem stored_writePsums (s : State) (d : Desc) (oy ox : Nat) (accs : List (Nat × Int)) : Stored s (writePsums s d oy ox accs) := by
  unfold writePsums
  dsimp only
  have h := Stored.foldl (fun s (a : Nat × Int) => engWrite s (d.outBase + psumOff d.oh d.ow a.1 oy ox) (leBytes 4 (a.2 % 2 ^ 32).toNat)) accs
    (fun u x => stored_engWrite u _ _) (Stored.refl s)
  split
  · exact Stored.foldl _ _ (fun u x => stored_engWrite u _ _) h
  · exact h

theorem stored_writeSlot (s : State) (d : Desc) (cb oy ox : Nat) (codes : List (Nat × Nat)) : Stored s (writeSlot s d cb oy ox codes) := by
  unfold writeSlot
  split
  · rfl
  · exact stored_engWrite _ _ _

theorem tallied_blockColumn (d : Desc) (i cbOff k : Nat) (bad : List (Nat × Nat)) (places : List (Nat × (Nat × Nat × Nat × Nat)))
    (oy g xt : Nat) {s : State} (st : Run × List (Nat × Nat × Nat)) (h : Tallied s st.1.s) :
    Tallied s (blockColumn d i cbOff k bad places oy g xt st).1.s := by
  obtain ⟨r, held⟩ := st
  unfold blockColumn
  dsimp only at h ⊢
  split
  · exact h
  · split
    · exact Tallied.foldl _ _ (fun u x => (stored_writePsums u _ _ _ _).tallied) h
    · refine Tallied.foldl _ _ (fun u x => ?_) h
      split
      · exact (stored_writeWide u _ _ _ _).tallied
      · exact (stored_writeWide u _ _ _ _).tallied.trans (tallied_writePosition _ _ _ _ _)

/-- A fold over runs keeps what each of its steps keeps. -/
theorem foldl_run {α β : Type} (s : State) (p : β → State) (f : β → α → β) (k : ∀ b x, Tallied s (p b) → Tallied s (p (f b x))) (l : List α)
    (b : β) (h : Tallied s (p b)) : Tallied s (p (l.foldl f b)) := by
  induction l generalizing b with
  | nil => exact h
  | cons a l ih => exact ih _ (k _ _ h)

theorem tallied_writeSlots (d : Desc) (oy g xt : Nat) {s : State} (st : Run × List (Nat × Nat × Nat)) (h : Tallied s st.1.s) :
    Tallied s (writeSlots d oy g xt st).s := by
  obtain ⟨r, held⟩ := st
  unfold writeSlots
  dsimp only at h ⊢
  split
  · refine Tallied.foldl _ _ (fun u x => ?_) h
    exact Tallied.foldl _ _ (fun u x => (stored_writeSlot u _ _ _ _ _).tallied) (Tallied.refl u)
  · exact h

theorem tallied_outputRow (d : Desc) (i cbOff k : Nat) (bad : List (Nat × Nat)) (places : List (Nat × (Nat × Nat × Nat × Nat))) (oy : Nat)
    {s : State} (r : Run) (h : Tallied s r.s) : Tallied s (outputRow d i cbOff k bad places r oy).s := by
  unfold outputRow
  refine foldl_run s (fun st : Run × List (Nat × Nat × Nat) => st.1.s) _ (fun st g hs => ?_) _ _ h
  refine foldl_run s (fun st : Run × List (Nat × Nat × Nat) => st.1.s) _ (fun st xt hs => ?_) _ _ hs
  exact tallied_writeSlots _ _ _ _ _ (tallied_blockColumn _ _ _ _ _ _ _ _ _ _ hs)

/-- A Tutti descriptor changes memory and the tile sums. -/
theorem tallied_runDescriptor (s : State) (i : Nat) : Tallied s (runDescriptor s i).s := by
  unfold runDescriptor
  exact foldl_run s (fun r : Run => r.s) _ (fun r x h => tallied_outputRow _ _ _ _ _ _ _ _ h) _ _ (Tallied.refl s)

/-- A crop job changes memory. -/
theorem stored_runCrop (s : State) (o : Nat) : Stored s (runCrop s o) := by
  unfold runCrop
  refine Stored.foldl _ _ (fun u x => ?_) (Stored.refl s)
  refine Stored.foldl _ _ (fun u x => ?_) (Stored.refl u)
  refine Stored.foldl _ _ (fun u x => ?_) (Stored.refl u)
  refine Stored.foldl _ _ (fun u x => ?_) (Stored.refl u)
  exact stored_engWrite _ _ _

/-- A sieve job changes memory. -/
theorem stored_runSieve (s : State) (o : Nat) : Stored s (runSieve s o) := by
  unfold runSieve
  refine Stored.foldl _ _ (fun u x => ?_) (stored_engWrite _ _ _)
  exact (stored_engWrite _ _ _).trans (stored_engWrite _ _ _)

theorem stored_writeStore (s : State) (a : Attention) : Stored s (writeStore s a) := by
  unfold writeStore
  refine Stored.trans ?_ (stored_engWrite _ _ _)
  refine Stored.foldl _ _ (fun u x => stored_engWrite _ _ _) ?_
  exact Stored.foldl _ _ (fun u x => stored_engWrite _ _ _) (Stored.refl s)

/-- An attention job changes memory and the counts of rested positions. -/
theorem runAttention_changes (s : State) (o : Nat) :
    runAttention s o = { s with
      ram := (runAttention s o).ram
      exec := { s.exec with restAge := (runAttention s o).exec.restAge, restWeak := (runAttention s o).exec.restWeak } } := by
  have h : Stored s (if (attentionAt s o).write then writeStore s (attentionAt s o) else s) := by
    split
    · exact stored_writeStore _ _
    · rfl
  unfold runAttention
  revert h
  dsimp only
  generalize (if (attentionAt s o).write then writeStore s (attentionAt s o) else s) = u
  intro h
  generalize (List.range (attentionAt s o).nq).map _ = outs
  have k : ∀ (f : State → (Option (List Nat) × Nat × Nat) × Nat → State), (∀ u x, Stored u (f u x)) → Stored s (outs.zipIdx.foldl f u) :=
    fun f hf => Stored.foldl f _ hf h
  have z := k _ fun v r => Stored.foldl (fun t j => engWrite t ((attentionAt s o).out + tensorOff 2 1 (attentionAt s o).nq j 0 r.2)
    [match r.1.1 with
      | some l => byte (l.getD j 0)
      | none => Config.attentionNoPosition o r.2 j]) (List.range (attentionAt s o).dv)
    (fun v x => stored_engWrite _ _ _) (Stored.refl v)
  revert z
  generalize List.foldl _ u _ = v
  intro z
  unfold Stored at z
  rw [z]

end Sys2Proof.Laws
end

