-- ==== Sys2Proof/Laws/PerInstr.lean ====
section
/-!
SUPPORT. Laws stated one lemma per constructor of `Instr`. The family Encoding: the word of a Soli instruction has 32 bits; no other command has
a word.
-/
namespace Sys2Proof.Laws

open Sys2Proof.Machine

/-- The word of an instruction, if it has one, has 32 bits. -/
def Encoding.Statement (i : Instr) : Prop := ∀ w, soliEncode i = some w → w < 2 ^ 32

theorem guardBits_lt (g : Guard) : guardBits g < 16 := by
  have h := g.g.isLt
  unfold guardBits
  split <;> omega

theorem condNum_lt (k : Cond) : condNum k < 8 := by cases k <;> decide

theorem lopNum_lt (k : Lop) : lopNum k < 4 := by cases k <;> decide

theorem encR_lt (op : Nat) (g : Guard) (d a b : Reg) (s : Nat) (h : op < 64) (k : s < 8) : encR op g d a b s < 2 ^ 32 := by
  have h1 := d.isLt; have h2 := a.isLt; have h3 := b.isLt; have h4 := guardBits_lt g
  unfold encR
  omega

theorem encI_lt (op : Nat) (g : Guard) (d a : Reg) (imm : Nat) (h : op < 64) (k : imm < 2 ^ 12) : encI op g d a imm < 2 ^ 32 := by
  have h1 := d.isLt; have h2 := a.isLt; have h4 := guardBits_lt g
  unfold encI
  omega

theorem encL_lt (op : Nat) (g : Guard) (d a : Reg) (off : BitVec 10) (lc : Nat) (h : op < 64) (k : lc < 4) : encL op g d a off lc < 2 ^ 32 := by
  have h1 := d.isLt; have h2 := a.isLt; have h3 := off.isLt; have h4 := guardBits_lt g
  unfold encL
  omega

theorem encB_lt (op : Nat) (g : Guard) (off : Nat) (h : op < 64) (k : off < 2 ^ 22) : encB op g off < 2 ^ 32 := by
  have h4 := guardBits_lt g
  unfold encB
  omega

theorem encC_lt (op : Nat) (g : Guard) (pd : BitVec 3) (k : Cond) (a : Reg) (low : Nat) (h : op < 64) (l : low + 16 ≤ 2 ^ 15) :
    encC op g pd k a low < 2 ^ 32 := by
  have h1 := pd.isLt; have h2 := a.isLt; have h3 := condNum_lt k; have h4 := guardBits_lt g
  unfold encC
  omega

theorem encP_lt (op : Nat) (g : Guard) (pd : BitVec 3) (mode : Nat) (pa pb : BitVec 3) (h : op < 64) (k : mode < 4) :
    encP op g pd mode pa pb < 2 ^ 32 := by
  have h1 := pd.isLt; have h2 := pa.isLt; have h3 := pb.isLt; have h4 := guardBits_lt g
  unfold encP
  omega

/-- The one word of an instruction that has one. -/
theorem Encoding.of_lt {i : Instr} {v : Nat} (e : soliEncode i = some v) (h : v < 2 ^ 32) : Encoding.Statement i := fun _ k =>
  Option.some.inj (e.symm.trans k) ▸ h

theorem Encoding.of_none {i : Instr} (e : soliEncode i = none) : Encoding.Statement i := fun _ k => nomatch e.symm.trans k

theorem Encoding.aonPowerOn : Encoding.Statement .aonPowerOn := Encoding.of_none rfl

theorem Encoding.aonLoss : Encoding.Statement .aonLoss := Encoding.of_none rfl

theorem Encoding.supervisionStart (sel : DigestRead) : Encoding.Statement (.supervisionStart sel) := Encoding.of_none rfl

theorem Encoding.resetPairReading (first second : Vector Measure 6) : Encoding.Statement (.resetPairReading first second) := Encoding.of_none rfl

theorem Encoding.selChangeDigestRead (sel : DigestRead) : Encoding.Statement (.selChangeDigestRead sel) := Encoding.of_none rfl

theorem Encoding.vioValid : Encoding.Statement .vioValid := Encoding.of_none rfl

theorem Encoding.vioInvalid : Encoding.Statement .vioInvalid := Encoding.of_none rfl

theorem Encoding.rstNLow : Encoding.Statement .rstNLow := Encoding.of_none rfl

theorem Encoding.vinBelowVrst : Encoding.Statement .vinBelowVrst := Encoding.of_none rfl

theorem Encoding.vcoreCollapse : Encoding.Statement .vcoreCollapse := Encoding.of_none rfl

theorem Encoding.latchMoment (straps : Straps) (vpp : Bool) : Encoding.Statement (.latchMoment straps vpp) := Encoding.of_none rfl

theorem Encoding.digestVerification (wake : Bool) (ups : List Upset) : Encoding.Statement (.digestVerification wake ups) := Encoding.of_none rfl

theorem Encoding.imagerStepDone (p : Plane) (black : PowerUpEnd) : Encoding.Statement (.imagerStepDone p black) := Encoding.of_none rfl

theorem Encoding.limiterTick : Encoding.Statement .limiterTick := Encoding.of_none rfl

theorem Encoding.slotBoundary (adcW : Vector Code 640) (adcH : Vector Code 320) (priv : BoundaryRead) : Encoding.Statement (.slotBoundary adcW adcH priv) := Encoding.of_none rfl

theorem Encoding.abandonAndScrub : Encoding.Statement .abandonAndScrub := Encoding.of_none rfl

theorem Encoding.barStart : Encoding.Statement .barStart := Encoding.of_none rfl

theorem Encoding.exposureStart (p : Plane) : Encoding.Statement (.exposureStart p) := Encoding.of_none rfl

theorem Encoding.thermalSample (t : Int) : Encoding.Statement (.thermalSample t) := Encoding.of_none rfl

theorem Encoding.rubatoSenseInjectSample (rubato sense inject : Measure) : Encoding.Statement (.rubatoSenseInjectSample rubato sense inject) := Encoding.of_none rfl

theorem Encoding.leakSample (m : Measure) : Encoding.Statement (.leakSample m) := Encoding.of_none rfl

theorem Encoding.conductorSlot444 (wake : Bool) (ups : List Upset) : Encoding.Statement (.conductorSlot444 wake ups) := Encoding.of_none rfl

theorem Encoding.tacetEventPortDrain (elapsed : Bool) : Encoding.Statement (.tacetEventPortDrain elapsed) := Encoding.of_none rfl

theorem Encoding.tacetEntryEnd : Encoding.Statement .tacetEntryEnd := Encoding.of_none rfl

theorem Encoding.wakeHighInTacet : Encoding.Statement .wakeHighInTacet := Encoding.of_none rfl

theorem Encoding.aonWakeTimer : Encoding.Statement .aonWakeTimer := Encoding.of_none rfl

theorem Encoding.vwarnTrip : Encoding.Statement .vwarnTrip := Encoding.of_none rfl

theorem Encoding.fermataEntry : Encoding.Statement .fermataEntry := Encoding.of_none rfl

theorem Encoding.vcoreUndervoltage : Encoding.Statement .vcoreUndervoltage := Encoding.of_none rfl

theorem Encoding.fermataEnd : Encoding.Statement .fermataEnd := Encoding.of_none rfl

theorem Encoding.ledInterlockMet : Encoding.Statement .ledInterlockMet := Encoding.of_none rfl

theorem Encoding.ledInterlockOpen (current forward : Bool) : Encoding.Statement (.ledInterlockOpen current forward) := Encoding.of_none rfl

theorem Encoding.vpixDischarged : Encoding.Statement .vpixDischarged := Encoding.of_none rfl

theorem Encoding.privNFall : Encoding.Statement .privNFall := Encoding.of_none rfl

theorem Encoding.planeRestart : Encoding.Statement .planeRestart := Encoding.of_none rfl

theorem Encoding.refClkEdge (cycles : Nat) : Encoding.Statement (.refClkEdge cycles) := Encoding.of_none rfl

theorem Encoding.refClkTimeout : Encoding.Statement .refClkTimeout := Encoding.of_none rfl

theorem Encoding.trimRunEnd (cycles : Nat) : Encoding.Statement (.trimRunEnd cycles) := Encoding.of_none rfl

theorem Encoding.tokenRefill (edges : Nat) : Encoding.Statement (.tokenRefill edges) := Encoding.of_none rfl

theorem Encoding.recordRelease : Encoding.Statement .recordRelease := Encoding.of_none rfl

theorem Encoding.eventPortTransaction (edges : Nat) : Encoding.Statement (.eventPortTransaction edges) := Encoding.of_none rfl

theorem Encoding.post (cue : BitVec 7) (inc : BitVec 9) (ups : List Upset) : Encoding.Statement (.post cue inc ups) := Encoding.of_none rfl

theorem Encoding.launchT (index : BitVec 16) : Encoding.Statement (.launchT index) := Encoding.of_none rfl

theorem Encoding.launchS (index : BitVec 16) : Encoding.Statement (.launchS index) := Encoding.of_none rfl

theorem Encoding.sample (chg : Bool) (level : Bool) : Encoding.Statement (.sample chg level) := Encoding.of_none rfl

theorem Encoding.mark (begins : Bool) : Encoding.Statement (.mark begins) := Encoding.of_none rfl

theorem Encoding.queueDispatch (soli : QueueRead) : Encoding.Statement (.queueDispatch soli) := Encoding.of_none rfl

theorem Encoding.tuttiDescriptorComplete (ups : List Upset) : Encoding.Statement (.tuttiDescriptorComplete ups) := Encoding.of_none rfl

theorem Encoding.kernelComplete (k : Nat) (ups : List Upset) : Encoding.Statement (.kernelComplete k ups) := Encoding.of_none rfl

theorem Encoding.cropJobComplete (ups : List Upset) : Encoding.Statement (.cropJobComplete ups) := Encoding.of_none rfl

theorem Encoding.sieveJobComplete (ups : List Upset) : Encoding.Statement (.sieveJobComplete ups) := Encoding.of_none rfl

theorem Encoding.attentionJobComplete (ups : List Upset) : Encoding.Statement (.attentionJobComplete ups) := Encoding.of_none rfl

theorem Encoding.endThreads (c : Ctx) (g : Guard) (ups : List Upset) : Encoding.Statement (.endThreads c g ups) :=
  Encoding.of_lt rfl (encB_lt _ _ _ (by decide) (by decide))

theorem Encoding.add (c : Ctx) (g : Guard) (d a b : Reg) : Encoding.Statement (.add c g d a b) :=
  Encoding.of_lt rfl (encR_lt _ _ _ _ _ _ (by decide) (by decide))

theorem Encoding.sub (c : Ctx) (g : Guard) (d a b : Reg) : Encoding.Statement (.sub c g d a b) :=
  Encoding.of_lt rfl (encR_lt _ _ _ _ _ _ (by decide) (by decide))

theorem Encoding.mul (c : Ctx) (g : Guard) (d a b : Reg) : Encoding.Statement (.mul c g d a b) :=
  Encoding.of_lt rfl (encR_lt _ _ _ _ _ _ (by decide) (by decide))

theorem Encoding.mulh (c : Ctx) (g : Guard) (d a b : Reg) : Encoding.Statement (.mulh c g d a b) :=
  Encoding.of_lt rfl (encR_lt _ _ _ _ _ _ (by decide) (by decide))

theorem Encoding.mac (c : Ctx) (g : Guard) (d a b : Reg) : Encoding.Statement (.mac c g d a b) :=
  Encoding.of_lt rfl (encR_lt _ _ _ _ _ _ (by decide) (by decide))

theorem Encoding.dot4s (c : Ctx) (g : Guard) (d a b : Reg) : Encoding.Statement (.dot4s c g d a b) :=
  Encoding.of_lt rfl (encR_lt _ _ _ _ _ _ (by decide) (by decide))

theorem Encoding.dot4us (c : Ctx) (g : Guard) (d a b : Reg) : Encoding.Statement (.dot4us c g d a b) :=
  Encoding.of_lt rfl (encR_lt _ _ _ _ _ _ (by decide) (by decide))

theorem Encoding.and (c : Ctx) (g : Guard) (d a b : Reg) : Encoding.Statement (.and c g d a b) :=
  Encoding.of_lt rfl (encR_lt _ _ _ _ _ _ (by decide) (by decide))

theorem Encoding.or (c : Ctx) (g : Guard) (d a b : Reg) : Encoding.Statement (.or c g d a b) :=
  Encoding.of_lt rfl (encR_lt _ _ _ _ _ _ (by decide) (by decide))

theorem Encoding.xor (c : Ctx) (g : Guard) (d a b : Reg) : Encoding.Statement (.xor c g d a b) :=
  Encoding.of_lt rfl (encR_lt _ _ _ _ _ _ (by decide) (by decide))

theorem Encoding.shl (c : Ctx) (g : Guard) (d a b : Reg) : Encoding.Statement (.shl c g d a b) :=
  Encoding.of_lt rfl (encR_lt _ _ _ _ _ _ (by decide) (by decide))

theorem Encoding.shr (c : Ctx) (g : Guard) (d a b : Reg) : Encoding.Statement (.shr c g d a b) :=
  Encoding.of_lt rfl (encR_lt _ _ _ _ _ _ (by decide) (by decide))

theorem Encoding.sra (c : Ctx) (g : Guard) (d a b : Reg) : Encoding.Statement (.sra c g d a b) :=
  Encoding.of_lt rfl (encR_lt _ _ _ _ _ _ (by decide) (by decide))

theorem Encoding.min (c : Ctx) (g : Guard) (d a b : Reg) : Encoding.Statement (.min c g d a b) :=
  Encoding.of_lt rfl (encR_lt _ _ _ _ _ _ (by decide) (by decide))

theorem Encoding.max (c : Ctx) (g : Guard) (d a b : Reg) : Encoding.Statement (.max c g d a b) :=
  Encoding.of_lt rfl (encR_lt _ _ _ _ _ _ (by decide) (by decide))

theorem Encoding.minu (c : Ctx) (g : Guard) (d a b : Reg) : Encoding.Statement (.minu c g d a b) :=
  Encoding.of_lt rfl (encR_lt _ _ _ _ _ _ (by decide) (by decide))

theorem Encoding.maxu (c : Ctx) (g : Guard) (d a b : Reg) : Encoding.Statement (.maxu c g d a b) :=
  Encoding.of_lt rfl (encR_lt _ _ _ _ _ _ (by decide) (by decide))

theorem Encoding.abs (c : Ctx) (g : Guard) (d a : Reg) : Encoding.Statement (.abs c g d a) :=
  Encoding.of_lt rfl (encR_lt _ _ _ _ _ _ (by decide) (by decide))

theorem Encoding.lzc (c : Ctx) (g : Guard) (d a : Reg) : Encoding.Statement (.lzc c g d a) :=
  Encoding.of_lt rfl (encR_lt _ _ _ _ _ _ (by decide) (by decide))

theorem Encoding.sel (c : Ctx) (g : Guard) (d a b : Reg) (p : BitVec 3) : Encoding.Statement (.sel c g d a b p) :=
  Encoding.of_lt rfl (encR_lt _ _ _ _ _ _ (by decide) (p.isLt))

theorem Encoding.shfl (c : Ctx) (g : Guard) (d a b : Reg) : Encoding.Statement (.shfl c g d a b) :=
  Encoding.of_lt rfl (encR_lt _ _ _ _ _ _ (by decide) (by decide))

theorem Encoding.rshr (c : Ctx) (g : Guard) (d a b : Reg) : Encoding.Statement (.rshr c g d a b) :=
  Encoding.of_lt rfl (encR_lt _ _ _ _ _ _ (by decide) (by decide))

theorem Encoding.rsc (c : Ctx) (g : Guard) (d a b : Reg) : Encoding.Statement (.rsc c g d a b) :=
  Encoding.of_lt rfl (encR_lt _ _ _ _ _ _ (by decide) (by decide))

theorem Encoding.clamp (c : Ctx) (g : Guard) (d a b : Reg) : Encoding.Statement (.clamp c g d a b) :=
  Encoding.of_lt rfl (encR_lt _ _ _ _ _ _ (by decide) (by decide))

theorem Encoding.bra (c : Ctx) (g : Guard) (off : BitVec 22) : Encoding.Statement (.bra c g off) :=
  Encoding.of_lt rfl (encB_lt _ _ _ (by decide) (off.isLt))

theorem Encoding.rpush (c : Ctx) (off : BitVec 22) : Encoding.Statement (.rpush c off) :=
  Encoding.of_lt rfl (encB_lt _ _ _ (by decide) (off.isLt))

theorem Encoding.rsync (c : Ctx) : Encoding.Statement (.rsync c) :=
  Encoding.of_lt rfl (encB_lt _ _ _ (by decide) (by decide))

theorem Encoding.park (c : Ctx) (g : Guard) : Encoding.Statement (.park c g) :=
  Encoding.of_lt rfl (encB_lt _ _ _ (by decide) (by decide))

theorem Encoding.ldc (c : Ctx) (g : Guard) (d a : Reg) (off : BitVec 10) (lc : BitVec 2) (ups : List Upset) : Encoding.Statement (.ldc c g d a off lc ups) :=
  Encoding.of_lt rfl (encL_lt _ _ _ _ _ _ (by decide) (lc.isLt))

theorem Encoding.addi (c : Ctx) (g : Guard) (d a : Reg) (imm : BitVec 12) : Encoding.Statement (.addi c g d a imm) :=
  Encoding.of_lt rfl (encI_lt _ _ _ _ _ (by decide) (imm.isLt))

theorem Encoding.andi (c : Ctx) (g : Guard) (d a : Reg) (imm : BitVec 12) : Encoding.Statement (.andi c g d a imm) :=
  Encoding.of_lt rfl (encI_lt _ _ _ _ _ (by decide) (imm.isLt))

theorem Encoding.ori (c : Ctx) (g : Guard) (d a : Reg) (imm : BitVec 12) : Encoding.Statement (.ori c g d a imm) :=
  Encoding.of_lt rfl (encI_lt _ _ _ _ _ (by decide) (imm.isLt))

theorem Encoding.xori (c : Ctx) (g : Guard) (d a : Reg) (imm : BitVec 12) : Encoding.Statement (.xori c g d a imm) :=
  Encoding.of_lt rfl (encI_lt _ _ _ _ _ (by decide) (imm.isLt))

theorem Encoding.shli (c : Ctx) (g : Guard) (d a : Reg) (sh : BitVec 5) : Encoding.Statement (.shli c g d a sh) :=
  Encoding.of_lt rfl (encI_lt _ _ _ _ _ (by decide) (by have := sh.isLt; omega))

theorem Encoding.shri (c : Ctx) (g : Guard) (d a : Reg) (sh : BitVec 5) : Encoding.Statement (.shri c g d a sh) :=
  Encoding.of_lt rfl (encI_lt _ _ _ _ _ (by decide) (by have := sh.isLt; omega))

theorem Encoding.srai (c : Ctx) (g : Guard) (d a : Reg) (sh : BitVec 5) : Encoding.Statement (.srai c g d a sh) :=
  Encoding.of_lt rfl (encI_lt _ _ _ _ _ (by decide) (by have := sh.isLt; omega))

theorem Encoding.lui (c : Ctx) (g : Guard) (d : Reg) (imm : BitVec 16) : Encoding.Statement (.lui c g d imm) :=
  Encoding.of_lt rfl (by
    have h0 := guardBits_lt g
    have h1 := d.isLt
    have h2 := imm.isLt
    omega)

theorem Encoding.sreg (c : Ctx) (g : Guard) (d : Reg) (imm : BitVec 12) : Encoding.Statement (.sreg c g d imm) :=
  Encoding.of_lt rfl (encI_lt _ _ _ _ _ (by decide) (imm.isLt))

theorem Encoding.cmp (c : Ctx) (g : Guard) (pd : BitVec 3) (cond : Cond) (a b : Reg) : Encoding.Statement (.cmp c g pd cond a b) :=
  Encoding.of_lt rfl (encC_lt _ _ _ _ _ _ (by decide) (by have := b.isLt; omega))

theorem Encoding.cmpi (c : Ctx) (g : Guard) (pd : BitVec 3) (cond : Cond) (a : Reg) (imm : BitVec 11) : Encoding.Statement (.cmpi c g pd cond a imm) :=
  Encoding.of_lt rfl (encC_lt _ _ _ _ _ _ (by decide) (by have := imm.isLt; omega))

theorem Encoding.plog (c : Ctx) (g : Guard) (pd : BitVec 3) (op : Lop) (pa pb : BitVec 3) : Encoding.Statement (.plog c g pd op pa pb) :=
  Encoding.of_lt rfl (encP_lt _ _ _ _ _ _ (by decide) (lopNum_lt op))

theorem Encoding.vote (c : Ctx) (g : Guard) (pd : BitVec 3) (all : Bool) (pa : BitVec 3) : Encoding.Statement (.vote c g pd all pa) :=
  Encoding.of_lt rfl (encP_lt _ _ _ _ _ _ (by decide) (by split <;> decide))

theorem Encoding.ldw (c : Ctx) (g : Guard) (d a : Reg) (off : BitVec 10) (lc : BitVec 2) (ups : List Upset) : Encoding.Statement (.ldw c g d a off lc ups) :=
  Encoding.of_lt rfl (encL_lt _ _ _ _ _ _ (by decide) (lc.isLt))

theorem Encoding.ldh (c : Ctx) (g : Guard) (d a : Reg) (off : BitVec 10) (lc : BitVec 2) (ups : List Upset) : Encoding.Statement (.ldh c g d a off lc ups) :=
  Encoding.of_lt rfl (encL_lt _ _ _ _ _ _ (by decide) (lc.isLt))

theorem Encoding.ldhu (c : Ctx) (g : Guard) (d a : Reg) (off : BitVec 10) (lc : BitVec 2) (ups : List Upset) : Encoding.Statement (.ldhu c g d a off lc ups) :=
  Encoding.of_lt rfl (encL_lt _ _ _ _ _ _ (by decide) (lc.isLt))

theorem Encoding.ldb (c : Ctx) (g : Guard) (d a : Reg) (off : BitVec 10) (lc : BitVec 2) (ups : List Upset) : Encoding.Statement (.ldb c g d a off lc ups) :=
  Encoding.of_lt rfl (encL_lt _ _ _ _ _ _ (by decide) (lc.isLt))

theorem Encoding.ldbu (c : Ctx) (g : Guard) (d a : Reg) (off : BitVec 10) (lc : BitVec 2) (ups : List Upset) : Encoding.Statement (.ldbu c g d a off lc ups) :=
  Encoding.of_lt rfl (encL_lt _ _ _ _ _ _ (by decide) (lc.isLt))

theorem Encoding.loadReturn (c : Ctx) (k : Nat) (lanes : BitVec 16) : Encoding.Statement (.loadReturn c k lanes) := Encoding.of_none rfl

theorem Encoding.stw (c : Ctx) (g : Guard) (d a : Reg) (off : BitVec 10) (ups : List Upset) : Encoding.Statement (.stw c g d a off ups) :=
  Encoding.of_lt rfl (encL_lt _ _ _ _ _ _ (by decide) (by decide))

theorem Encoding.sth (c : Ctx) (g : Guard) (d a : Reg) (off : BitVec 10) (ups : List Upset) : Encoding.Statement (.sth c g d a off ups) :=
  Encoding.of_lt rfl (encL_lt _ _ _ _ _ _ (by decide) (by decide))

theorem Encoding.stb (c : Ctx) (g : Guard) (d a : Reg) (off : BitVec 10) (ups : List Upset) : Encoding.Statement (.stb c g d a off ups) :=
  Encoding.of_lt rfl (encL_lt _ _ _ _ _ _ (by decide) (by decide))

theorem Encoding.waitlc (c : Ctx) (g : Guard) (count : BitVec 6) (lc : BitVec 2) : Encoding.Statement (.waitlc c g count lc) :=
  Encoding.of_lt rfl (by
    have h0 := guardBits_lt g
    have h1 := count.isLt
    have h2 := lc.isLt
    omega)

theorem Encoding.exp (c : Ctx) (g : Guard) (d a : Reg) : Encoding.Statement (.exp c g d a) :=
  Encoding.of_lt rfl (encR_lt _ _ _ _ _ _ (by decide) (by decide))

theorem Encoding.rcp (c : Ctx) (g : Guard) (d a : Reg) : Encoding.Statement (.rcp c g d a) :=
  Encoding.of_lt rfl (encR_lt _ _ _ _ _ _ (by decide) (by decide))

theorem Encoding.rsq (c : Ctx) (g : Guard) (d a : Reg) : Encoding.Statement (.rsq c g d a) :=
  Encoding.of_lt rfl (encR_lt _ _ _ _ _ _ (by decide) (by decide))

theorem Encoding.cwait (c : Ctx) (g : Guard) (cue : BitVec 7) (a : Reg) : Encoding.Statement (.cwait c g cue a) :=
  Encoding.of_lt rfl (by
    have h0 := guardBits_lt g
    have h1 := cue.isLt
    have h2 := a.isLt
    omega)

theorem Encoding.cpost (c : Ctx) (g : Guard) (cue : BitVec 7) (inc : BitVec 9) (ups : List Upset) : Encoding.Statement (.cpost c g cue inc ups) :=
  Encoding.of_lt rfl (by
    have h0 := guardBits_lt g
    have h1 := cue.isLt
    have h2 := inc.isLt
    omega)

theorem Encoding.scanStart (chg : Bool) : Encoding.Statement (.scanStart chg) := Encoding.of_none rfl

theorem Encoding.scanComplete (chips : List (List Int)) (noise : ListenRead) : Encoding.Statement (.scanComplete chips noise) := Encoding.of_none rfl

theorem Encoding.effectStart (vin : Nat) : Encoding.Statement (.effectStart vin) := Encoding.of_none rfl

theorem Encoding.halfCycleEnd (vin : Nat) (emf : Bool) : Encoding.Statement (.halfCycleEnd vin emf) := Encoding.of_none rfl

theorem Encoding.backEmfZeroCrossing (gap : Rat) : Encoding.Statement (.backEmfZeroCrossing gap) := Encoding.of_none rfl

theorem Encoding.brakeEnd (quiet : Bool) : Encoding.Statement (.brakeEnd quiet) := Encoding.of_none rfl

theorem Encoding.heartbeatSend : Encoding.Statement .heartbeatSend := Encoding.of_none rfl

theorem Encoding.frameTransmit : Encoding.Statement .frameTransmit := Encoding.of_none rfl

theorem Encoding.bar (f : FrameBytes) (arrival : Int) : Encoding.Statement (.bar f arrival) := Encoding.of_none rfl

theorem Encoding.heartbeat (f : FrameBytes) (scheduled : HeartbeatTime) : Encoding.Statement (.heartbeat f scheduled) := Encoding.of_none rfl

theorem Encoding.verdict (f : FrameBytes) : Encoding.Statement (.verdict f) := Encoding.of_none rfl

theorem Encoding.recA (f : FrameBytes) : Encoding.Statement (.recA f) := Encoding.of_none rfl

theorem Encoding.recB (f : FrameBytes) : Encoding.Statement (.recB f) := Encoding.of_none rfl

theorem Encoding.wake (f : FrameBytes) : Encoding.Statement (.wake f) := Encoding.of_none rfl

theorem Encoding.swapReq (f : FrameBytes) : Encoding.Statement (.swapReq f) := Encoding.of_none rfl

theorem Encoding.swapGo (f : FrameBytes) : Encoding.Statement (.swapGo f) := Encoding.of_none rfl

theorem Encoding.notice (f : FrameBytes) : Encoding.Statement (.notice f) := Encoding.of_none rfl

theorem Encoding.invalidFrame (e : FrameError) : Encoding.Statement (.invalidFrame e) := Encoding.of_none rfl

theorem Encoding.retransmitTimeout (seq : BitVec 4) : Encoding.Statement (.retransmitTimeout seq) := Encoding.of_none rfl

theorem Encoding.partnerSilenceTimeout : Encoding.Statement .partnerSilenceTimeout := Encoding.of_none rfl

theorem Encoding.swapGoWithdraw : Encoding.Statement .swapGoWithdraw := Encoding.of_none rfl

theorem Encoding.acquisitionHoldTimeout : Encoding.Statement .acquisitionHoldTimeout := Encoding.of_none rfl

theorem Encoding.load (h : FlailoHead) (vpp : Nat) (fails : List Nat) : Encoding.Statement (.load h vpp fails) := Encoding.of_none rfl

theorem Encoding.verify (h : FlailoHead) : Encoding.Statement (.verify h) := Encoding.of_none rfl

theorem Encoding.darkCal (h : FlailoHead) (led : Bool) (frames : DarkFrames) (resp : List Nat) : Encoding.Statement (.darkCal h led frames resp) := Encoding.of_none rfl

theorem Encoding.touchCal (h : FlailoHead) (scans : List (List Nat)) : Encoding.Statement (.touchCal h scans) := Encoding.of_none rfl

theorem Encoding.calWrite (h : FlailoHead) (vpp : Nat) (fails : List Nat) : Encoding.Statement (.calWrite h vpp fails) := Encoding.of_none rfl

theorem Encoding.read (h : FlailoHead) : Encoding.Statement (.read h) := Encoding.of_none rfl

theorem Encoding.seal (h : FlailoHead) : Encoding.Statement (.seal h) := Encoding.of_none rfl

theorem Encoding.info (h : FlailoHead) : Encoding.Statement (.info h) := Encoding.of_none rfl

theorem Encoding.privNRise : Encoding.Statement .privNRise := Encoding.of_none rfl

theorem Encoding.acquisitionHoldSample (priv : PadLevel) (t : Int) : Encoding.Statement (.acquisitionHoldSample priv t) := Encoding.of_none rfl

theorem Encoding.coreBaseStepComplete : Encoding.Statement .coreBaseStepComplete := Encoding.of_none rfl

theorem Encoding.flailoUnknownOpcode (op : Byte) (h : FlailoHead) : Encoding.Statement (.flailoUnknownOpcode op h) := Encoding.of_none rfl

end Sys2Proof.Laws
end

