-- ==== Sys2Proof/Laws/Soli.lean ====
section
/-!
SUPPORT. Soli sections: reading a register or predicate after a write, what an instruction that writes one of them in each acting lane leaves,
and the masks of acting lanes.
-/
namespace Sys2Proof.Laws

open Sys2Proof.Machine Sys2Proof.Safety

/-! ### Lanes -/

theorem setReg_reg (l : Lane) (d r : Reg) (v : Word) : (l.setReg d v).reg r = if r = d ∧ r ≠ 0 then v else l.reg r := by
  unfold Lane.setReg Lane.reg
  by_cases h : d = 0
  · rw [if_pos h]
    by_cases k : r = d ∧ r ≠ 0
    · exact absurd (k.1.trans h) k.2
    · rw [if_neg k]
  · rw [if_neg h]
    by_cases e : r = d
    · subst e
      rw [if_neg h, if_pos ⟨rfl, h⟩]
      exact Vector.getElem_set_self _
    · have : d.toNat ≠ r.toNat := fun q => e (BitVec.eq_of_toNat_eq q.symm)
      rw [if_neg fun q : r = d ∧ r ≠ 0 => e q.1]
      by_cases z : r = 0
      · rw [if_pos z, if_pos z]
      · rw [if_neg z, if_neg z]
        exact Vector.getElem_set_ne d.isLt r.isLt this

theorem setPred_pred (l : Lane) (d r : BitVec 3) (v : Bool) : (l.setPred d v).pred r = if r = d ∧ r ≠ 0 then v else l.pred r := by
  unfold Lane.setPred Lane.pred
  by_cases h : d = 0
  · rw [if_pos h]
    by_cases k : r = d ∧ r ≠ 0
    · exact absurd (k.1.trans h) k.2
    · rw [if_neg k]
  · rw [if_neg h]
    by_cases e : r = d
    · subst e
      rw [if_neg h, if_pos ⟨rfl, h⟩]
      exact Vector.getElem_set_self _
    · have : d.toNat ≠ r.toNat := fun q => e (BitVec.eq_of_toNat_eq q.symm)
      rw [if_neg fun q : r = d ∧ r ≠ 0 => e q.1]
      by_cases z : r = 0
      · rw [if_pos z, if_pos z]
      · rw [if_neg z, if_neg z]
        exact Vector.getElem_set_ne d.isLt r.isLt this

@[simp] theorem setReg_preds (l : Lane) (d : Reg) (v : Word) : (l.setReg d v).preds = l.preds := by
  unfold Lane.setReg
  split <;> rfl

@[simp] theorem setPred_regs (l : Lane) (d : BitVec 3) (v : Bool) : (l.setPred d v).regs = l.regs := by
  unfold Lane.setPred
  split <;> rfl

@[simp] theorem reg_zero (l : Lane) : l.reg 0 = 0 := by simp [Lane.reg]

@[simp] theorem pred_zero (l : Lane) : l.pred 0 = true := by simp [Lane.pred]

/-! ### Acting lanes -/

theorem onLanes_lane (x : Section) (g : Guard) (f : Fin 16 → Lane → Lane) (k : Fin 16) :
    (x.onLanes g f).lanes[k] = if x.acts g k then f k x.lanes[k] else x.lanes[k] := by
  simp [Section.onLanes]

/-- A mask has the bit of each lane of its predicate. -/
theorem maskOf_getLsbD (f : Fin 16 → Bool) (k : Fin 16) : (maskOf f).getLsbD k.val = f k := by
  have z : ∀ (l : List (Fin 16)) (m : BitVec 16),
      (l.foldl (fun m k => if f k then m ||| BitVec.ofNat 16 (2 ^ k.val) else m) m).getLsbD k.val = (m.getLsbD k.val || (decide (k ∈ l) && f k)) := by
    intro l
    induction l with
    | nil => intro m; simp
    | cons a l ih =>
      intro m
      rw [List.foldl_cons, ih]
      by_cases h : k = a
      · subst h
        have t : (BitVec.ofNat 16 (2 ^ k.val)).getLsbD k.val = true := by
          rw [BitVec.getLsbD_ofNat, Nat.testBit_two_pow]
          simp
        by_cases q : f k = true
        · rw [if_pos q, BitVec.getLsbD_or, t, q]
          simp
        · rw [if_neg q]
          simp [q]
      · have t : (BitVec.ofNat 16 (2 ^ a.val)).getLsbD k.val = false := by
          have q : ¬a.val = k.val := fun q => h (Fin.ext q.symm)
          rw [BitVec.getLsbD_ofNat, Nat.testBit_two_pow]
          simp only [q, decide_false, Bool.and_false]
        have m' : decide (k ∈ a :: l) = decide (k ∈ l) := by simp [h]
        rw [m']
        split
        · rw [BitVec.getLsbD_or, t, Bool.or_false]
        · rfl
  unfold maskOf
  rw [z]
  simp

theorem actMask_getLsbD (x : Section) (g : Guard) (k : Fin 16) : (x.actMask g).getLsbD k.val = x.acts g k := maskOf_getLsbD _ _

/-! ### Instructions -/

/-- A section that runs and fetches an instruction issues it. -/
theorem issue_of_issues {s : State} {c : Ctx} {x : Section} {i : Instr} (h : Issues s c x i) (f : Section → State) :
    issue s c i f = .next (f x) := by
  unfold issue
  rw [h.here]
  simp [h.running, h.fetched]

/-- Other lanes, and the next word: nothing else. -/
theorem advance_lanes (x : Section) (l : Vector Lane 16) :
    Section.advance { x with lanes := l } = { x with lanes := (Section.advance { x with lanes := l }).lanes, pc := x.pc + 1 } := rfl

/-- A section in whose acting lanes one register takes the value that `f` gives the lane. -/
theorem onLanes_wroteReg (x : Section) (g : Guard) (d : Reg) (f : Fin 16 → Lane → Word) :
    WroteReg x (x.onLanes g fun k l => l.setReg d (f k l)).advance g d fun k => f k x.lanes[k] where
  regs k r := by
    show ((x.onLanes g fun k l => l.setReg d (f k l)).lanes[k]).reg r = _
    rw [onLanes_lane]
    by_cases h : x.acts g k = true
    · rw [if_pos h, setReg_reg, h]
      by_cases e : r = d <;> by_cases z : r = 0 <;> simp [e, z]
    · rw [if_neg h]
      simp [h]
  preds k := by
    show ((x.onLanes g fun k l => l.setReg d (f k l)).lanes[k]).preds = _
    rw [onLanes_lane]
    split
    · exact setReg_preds _ _ _
    · rfl
  rest := advance_lanes x _

/-- A section in whose acting lanes one predicate takes the value that `f` gives the lane. -/
theorem onLanes_wrotePred (x : Section) (g : Guard) (d : BitVec 3) (f : Lane → Bool) :
    WrotePred x (x.onLanes g fun _ l => l.setPred d (f l)).advance g d fun k => f x.lanes[k] where
  preds k r := by
    show ((x.onLanes g fun _ l => l.setPred d (f l)).lanes[k]).pred r = _
    rw [onLanes_lane]
    by_cases h : x.acts g k = true
    · rw [if_pos h, setPred_pred, h]
      by_cases e : r = d <;> by_cases z : r = 0 <;> simp [e, z]
    · rw [if_neg h]
      simp [h]
  regs k := by
    show ((x.onLanes g fun _ l => l.setPred d (f l)).lanes[k]).regs = _
    rw [onLanes_lane]
    split
    · exact setPred_regs _ _ _
    · rfl
  rest := advance_lanes x _

/-- An instruction that writes one register. -/
theorem writeReg_wrote (s : State) (c : Ctx) (x : Section) (g : Guard) (d : Reg) (f : Fin 16 → Lane → Word) :
    ∃ y, writeReg s c x g d f = s.setSection c y ∧ WroteReg x y g d fun k => f k x.lanes[k] := by
  have h := onLanes_wroteReg x g d f
  revert h
  unfold writeReg
  generalize (x.onLanes g fun k l => l.setReg d (f k l)).advance = y
  exact fun h => ⟨y, rfl, h⟩

/-- An instruction that writes one predicate. -/
theorem writePred_wrote (s : State) (c : Ctx) (x : Section) (g : Guard) (d : BitVec 3) (f : Lane → Bool) :
    ∃ y, writePred s c x g d f = s.setSection c y ∧ WrotePred x y g d fun k => f x.lanes[k] := by
  have h := onLanes_wrotePred x g d f
  revert h
  unfold writePred
  generalize (x.onLanes g fun _ l => l.setPred d (f l)).advance = y
  exact fun h => ⟨y, rfl, h⟩

/-- The three-register form. -/
theorem alu_wrote {s : State} {c : Ctx} {i : Instr} {x : Section} (h : Issues s c x i) (g : Guard) (d a b : Reg) (f : Word → Word → Word) :
    ∃ y, alu s c i g d a b f = .next (s.setSection c y) ∧ WroteReg x y g d fun k => f (x.lanes[k].reg a) (x.lanes[k].reg b) := by
  obtain ⟨y, e, w⟩ := writeReg_wrote s c x g d fun _ l => f (l.reg a) (l.reg b)
  exact ⟨y, by rw [alu, issue_of_issues h, e], w⟩

/-- The accumulator form. -/
theorem aluAcc_wrote {s : State} {c : Ctx} {i : Instr} {x : Section} (h : Issues s c x i) (g : Guard) (d a b : Reg)
    (f : Word → Word → Word → Word) :
    ∃ y, aluAcc s c i g d a b f = .next (s.setSection c y)
      ∧ WroteReg x y g d fun k => f (x.lanes[k].reg d) (x.lanes[k].reg a) (x.lanes[k].reg b) := by
  obtain ⟨y, e, w⟩ := writeReg_wrote s c x g d fun _ l => f (l.reg d) (l.reg a) (l.reg b)
  exact ⟨y, by rw [aluAcc, issue_of_issues h, e], w⟩

/-- The form with one source register. -/
theorem alu1_wrote {s : State} {c : Ctx} {i : Instr} {x : Section} (h : Issues s c x i) (g : Guard) (d a : Reg) (f : Word → Word) :
    ∃ y, alu1 s c i g d a f = .next (s.setSection c y) ∧ WroteReg x y g d fun k => f (x.lanes[k].reg a) := by
  obtain ⟨y, e, w⟩ := writeReg_wrote s c x g d fun _ l => f (l.reg a)
  exact ⟨y, by rw [alu1, issue_of_issues h, e], w⟩

end Sys2Proof.Laws
end

