-- ==== Sys2Proof/Laws/State.lean ====
section
/-!
SUPPORT. The state's fields after the record updates that the operations share: one lemma a field, so that no proof unfolds an update.
-/
namespace Sys2Proof.Laws

open Sys2Proof.Machine

/-! ### State.withPending -/

@[simp] theorem withPending_pending (s : State) (q : List Instr) : (s.withPending q).pending = q := rfl
@[simp] theorem withPending_aon (s : State) (q : List Instr) : (s.withPending q).aon = s.aon := rfl
@[simp] theorem withPending_supply (s : State) (q : List Instr) : (s.withPending q).supply = s.supply := rfl
@[simp] theorem withPending_boot (s : State) (q : List Instr) : (s.withPending q).boot = s.boot := rfl
@[simp] theorem withPending_codes (s : State) (q : List Instr) : (s.withPending q).codes = s.codes := rfl
@[simp] theorem withPending_metro (s : State) (q : List Instr) : (s.withPending q).metro = s.metro := rfl
@[simp] theorem withPending_ref (s : State) (q : List Instr) : (s.withPending q).ref = s.ref := rfl
@[simp] theorem withPending_planeW (s : State) (q : List Instr) : (s.withPending q).planeW = s.planeW := rfl
@[simp] theorem withPending_planeH (s : State) (q : List Instr) : (s.withPending q).planeH = s.planeH := rfl
@[simp] theorem withPending_vpix (s : State) (q : List Instr) : (s.withPending q).vpix = s.vpix := rfl
@[simp] theorem withPending_priv (s : State) (q : List Instr) : (s.withPending q).priv = s.priv := rfl
@[simp] theorem withPending_thermal (s : State) (q : List Instr) : (s.withPending q).thermal = s.thermal := rfl
@[simp] theorem withPending_dets (s : State) (q : List Instr) : (s.withPending q).dets = s.dets := rfl
@[simp] theorem withPending_inj (s : State) (q : List Instr) : (s.withPending q).inj = s.inj := rfl
@[simp] theorem withPending_limiter (s : State) (q : List Instr) : (s.withPending q).limiter = s.limiter := rfl
@[simp] theorem withPending_blocks (s : State) (q : List Instr) : (s.withPending q).blocks = s.blocks := rfl
@[simp] theorem withPending_ram (s : State) (q : List Instr) : (s.withPending q).ram = s.ram := rfl
@[simp] theorem withPending_nvm (s : State) (q : List Instr) : (s.withPending q).nvm = s.nvm := rfl
@[simp] theorem withPending_exec (s : State) (q : List Instr) : (s.withPending q).exec = s.exec := rfl
@[simp] theorem withPending_touch (s : State) (q : List Instr) : (s.withPending q).touch = s.touch := rfl
@[simp] theorem withPending_accent (s : State) (q : List Instr) : (s.withPending q).accent = s.accent := rfl
@[simp] theorem withPending_port (s : State) (q : List Instr) : (s.withPending q).port = s.port := rfl
@[simp] theorem withPending_duet (s : State) (q : List Instr) : (s.withPending q).duet = s.duet := rfl
@[simp] theorem withPending_cond (s : State) (q : List Instr) : (s.withPending q).cond = s.cond := rfl
@[simp] theorem withPending_fermata (s : State) (q : List Instr) : (s.withPending q).fermata = s.fermata := rfl
@[simp] theorem withPending_fermataNext (s : State) (q : List Instr) : (s.withPending q).fermataNext = s.fermataNext := rfl
@[simp] theorem withPending_flailo (s : State) (q : List Instr) : (s.withPending q).flailo = s.flailo := rfl
@[simp] theorem withPending_free (s : State) (q : List Instr) : (s.withPending q).free = s.free := rfl

/-! ### State.setSection -/

@[simp] theorem setSection_pending (s : State) (c : Ctx) (x : Section) : (s.setSection c x).pending = s.pending := rfl
@[simp] theorem setSection_aon (s : State) (c : Ctx) (x : Section) : (s.setSection c x).aon = s.aon := rfl
@[simp] theorem setSection_supply (s : State) (c : Ctx) (x : Section) : (s.setSection c x).supply = s.supply := rfl
@[simp] theorem setSection_boot (s : State) (c : Ctx) (x : Section) : (s.setSection c x).boot = s.boot := rfl
@[simp] theorem setSection_codes (s : State) (c : Ctx) (x : Section) : (s.setSection c x).codes = s.codes := rfl
@[simp] theorem setSection_metro (s : State) (c : Ctx) (x : Section) : (s.setSection c x).metro = s.metro := rfl
@[simp] theorem setSection_ref (s : State) (c : Ctx) (x : Section) : (s.setSection c x).ref = s.ref := rfl
@[simp] theorem setSection_planeW (s : State) (c : Ctx) (x : Section) : (s.setSection c x).planeW = s.planeW := rfl
@[simp] theorem setSection_planeH (s : State) (c : Ctx) (x : Section) : (s.setSection c x).planeH = s.planeH := rfl
@[simp] theorem setSection_vpix (s : State) (c : Ctx) (x : Section) : (s.setSection c x).vpix = s.vpix := rfl
@[simp] theorem setSection_priv (s : State) (c : Ctx) (x : Section) : (s.setSection c x).priv = s.priv := rfl
@[simp] theorem setSection_thermal (s : State) (c : Ctx) (x : Section) : (s.setSection c x).thermal = s.thermal := rfl
@[simp] theorem setSection_dets (s : State) (c : Ctx) (x : Section) : (s.setSection c x).dets = s.dets := rfl
@[simp] theorem setSection_inj (s : State) (c : Ctx) (x : Section) : (s.setSection c x).inj = s.inj := rfl
@[simp] theorem setSection_limiter (s : State) (c : Ctx) (x : Section) : (s.setSection c x).limiter = s.limiter := rfl
@[simp] theorem setSection_blocks (s : State) (c : Ctx) (x : Section) : (s.setSection c x).blocks = s.blocks := rfl
@[simp] theorem setSection_ram (s : State) (c : Ctx) (x : Section) : (s.setSection c x).ram = s.ram := rfl
@[simp] theorem setSection_nvm (s : State) (c : Ctx) (x : Section) : (s.setSection c x).nvm = s.nvm := rfl
@[simp] theorem setSection_exec (s : State) (c : Ctx) (x : Section) : (s.setSection c x).exec = { s.exec with sections := s.exec.sections.set c.val (some x) c.isLt } := rfl
@[simp] theorem setSection_touch (s : State) (c : Ctx) (x : Section) : (s.setSection c x).touch = s.touch := rfl
@[simp] theorem setSection_accent (s : State) (c : Ctx) (x : Section) : (s.setSection c x).accent = s.accent := rfl
@[simp] theorem setSection_port (s : State) (c : Ctx) (x : Section) : (s.setSection c x).port = s.port := rfl
@[simp] theorem setSection_duet (s : State) (c : Ctx) (x : Section) : (s.setSection c x).duet = s.duet := rfl
@[simp] theorem setSection_cond (s : State) (c : Ctx) (x : Section) : (s.setSection c x).cond = s.cond := rfl
@[simp] theorem setSection_fermata (s : State) (c : Ctx) (x : Section) : (s.setSection c x).fermata = s.fermata := rfl
@[simp] theorem setSection_fermataNext (s : State) (c : Ctx) (x : Section) : (s.setSection c x).fermataNext = s.fermataNext := rfl
@[simp] theorem setSection_flailo (s : State) (c : Ctx) (x : Section) : (s.setSection c x).flailo = s.flailo := rfl
@[simp] theorem setSection_free (s : State) (c : Ctx) (x : Section) : (s.setSection c x).free = s.free := rfl

/-! ### State.setDet -/

@[simp] theorem setDet_pending (s : State) (d : Nat) (x : Detector) : (s.setDet d x).pending = s.pending := rfl
@[simp] theorem setDet_aon (s : State) (d : Nat) (x : Detector) : (s.setDet d x).aon = s.aon := rfl
@[simp] theorem setDet_supply (s : State) (d : Nat) (x : Detector) : (s.setDet d x).supply = s.supply := rfl
@[simp] theorem setDet_boot (s : State) (d : Nat) (x : Detector) : (s.setDet d x).boot = s.boot := rfl
@[simp] theorem setDet_codes (s : State) (d : Nat) (x : Detector) : (s.setDet d x).codes = s.codes := rfl
@[simp] theorem setDet_metro (s : State) (d : Nat) (x : Detector) : (s.setDet d x).metro = s.metro := rfl
@[simp] theorem setDet_ref (s : State) (d : Nat) (x : Detector) : (s.setDet d x).ref = s.ref := rfl
@[simp] theorem setDet_planeW (s : State) (d : Nat) (x : Detector) : (s.setDet d x).planeW = s.planeW := rfl
@[simp] theorem setDet_planeH (s : State) (d : Nat) (x : Detector) : (s.setDet d x).planeH = s.planeH := rfl
@[simp] theorem setDet_vpix (s : State) (d : Nat) (x : Detector) : (s.setDet d x).vpix = s.vpix := rfl
@[simp] theorem setDet_priv (s : State) (d : Nat) (x : Detector) : (s.setDet d x).priv = s.priv := rfl
@[simp] theorem setDet_thermal (s : State) (d : Nat) (x : Detector) : (s.setDet d x).thermal = s.thermal := rfl
@[simp] theorem setDet_dets (s : State) (d : Nat) (x : Detector) : (s.setDet d x).dets = s.dets.setIfInBounds d x := rfl
@[simp] theorem setDet_inj (s : State) (d : Nat) (x : Detector) : (s.setDet d x).inj = s.inj := rfl
@[simp] theorem setDet_limiter (s : State) (d : Nat) (x : Detector) : (s.setDet d x).limiter = s.limiter := rfl
@[simp] theorem setDet_blocks (s : State) (d : Nat) (x : Detector) : (s.setDet d x).blocks = s.blocks := rfl
@[simp] theorem setDet_ram (s : State) (d : Nat) (x : Detector) : (s.setDet d x).ram = s.ram := rfl
@[simp] theorem setDet_nvm (s : State) (d : Nat) (x : Detector) : (s.setDet d x).nvm = s.nvm := rfl
@[simp] theorem setDet_exec (s : State) (d : Nat) (x : Detector) : (s.setDet d x).exec = s.exec := rfl
@[simp] theorem setDet_touch (s : State) (d : Nat) (x : Detector) : (s.setDet d x).touch = s.touch := rfl
@[simp] theorem setDet_accent (s : State) (d : Nat) (x : Detector) : (s.setDet d x).accent = s.accent := rfl
@[simp] theorem setDet_port (s : State) (d : Nat) (x : Detector) : (s.setDet d x).port = s.port := rfl
@[simp] theorem setDet_duet (s : State) (d : Nat) (x : Detector) : (s.setDet d x).duet = s.duet := rfl
@[simp] theorem setDet_cond (s : State) (d : Nat) (x : Detector) : (s.setDet d x).cond = s.cond := rfl
@[simp] theorem setDet_fermata (s : State) (d : Nat) (x : Detector) : (s.setDet d x).fermata = s.fermata := rfl
@[simp] theorem setDet_fermataNext (s : State) (d : Nat) (x : Detector) : (s.setDet d x).fermataNext = s.fermataNext := rfl
@[simp] theorem setDet_flailo (s : State) (d : Nat) (x : Detector) : (s.setDet d x).flailo = s.flailo := rfl
@[simp] theorem setDet_free (s : State) (d : Nat) (x : Detector) : (s.setDet d x).free = s.free := rfl

/-! ### popEntry -/

@[simp] theorem popEntry_pending (s : State) : (popEntry s).pending = s.pending := rfl
@[simp] theorem popEntry_aon (s : State) : (popEntry s).aon = s.aon := rfl
@[simp] theorem popEntry_supply (s : State) : (popEntry s).supply = s.supply := rfl
@[simp] theorem popEntry_boot (s : State) : (popEntry s).boot = s.boot := rfl
@[simp] theorem popEntry_codes (s : State) : (popEntry s).codes = s.codes := rfl
@[simp] theorem popEntry_metro (s : State) : (popEntry s).metro = { s.metro with issue := s.metro.issue.drop 1 } := rfl
@[simp] theorem popEntry_ref (s : State) : (popEntry s).ref = s.ref := rfl
@[simp] theorem popEntry_planeW (s : State) : (popEntry s).planeW = s.planeW := rfl
@[simp] theorem popEntry_planeH (s : State) : (popEntry s).planeH = s.planeH := rfl
@[simp] theorem popEntry_vpix (s : State) : (popEntry s).vpix = s.vpix := rfl
@[simp] theorem popEntry_priv (s : State) : (popEntry s).priv = s.priv := rfl
@[simp] theorem popEntry_thermal (s : State) : (popEntry s).thermal = s.thermal := rfl
@[simp] theorem popEntry_dets (s : State) : (popEntry s).dets = s.dets := rfl
@[simp] theorem popEntry_inj (s : State) : (popEntry s).inj = s.inj := rfl
@[simp] theorem popEntry_limiter (s : State) : (popEntry s).limiter = s.limiter := rfl
@[simp] theorem popEntry_blocks (s : State) : (popEntry s).blocks = s.blocks := rfl
@[simp] theorem popEntry_ram (s : State) : (popEntry s).ram = s.ram := rfl
@[simp] theorem popEntry_nvm (s : State) : (popEntry s).nvm = s.nvm := rfl
@[simp] theorem popEntry_exec (s : State) : (popEntry s).exec = s.exec := rfl
@[simp] theorem popEntry_touch (s : State) : (popEntry s).touch = s.touch := rfl
@[simp] theorem popEntry_accent (s : State) : (popEntry s).accent = s.accent := rfl
@[simp] theorem popEntry_port (s : State) : (popEntry s).port = s.port := rfl
@[simp] theorem popEntry_duet (s : State) : (popEntry s).duet = s.duet := rfl
@[simp] theorem popEntry_cond (s : State) : (popEntry s).cond = s.cond := rfl
@[simp] theorem popEntry_fermata (s : State) : (popEntry s).fermata = s.fermata := rfl
@[simp] theorem popEntry_fermataNext (s : State) : (popEntry s).fermataNext = s.fermataNext := rfl
@[simp] theorem popEntry_flailo (s : State) : (popEntry s).flailo = s.flailo := rfl
@[simp] theorem popEntry_free (s : State) : (popEntry s).free = s.free := rfl

/-! ### dropDue -/

@[simp] theorem dropDue_pending (s : State) (d : Due) : (dropDue s d).pending = s.pending := rfl
@[simp] theorem dropDue_aon (s : State) (d : Due) : (dropDue s d).aon = s.aon := rfl
@[simp] theorem dropDue_supply (s : State) (d : Due) : (dropDue s d).supply = s.supply := rfl
@[simp] theorem dropDue_boot (s : State) (d : Due) : (dropDue s d).boot = s.boot := rfl
@[simp] theorem dropDue_codes (s : State) (d : Due) : (dropDue s d).codes = s.codes := rfl
@[simp] theorem dropDue_metro (s : State) (d : Due) : (dropDue s d).metro = { s.metro with due := s.metro.due.filter (· ≠ d) } := rfl
@[simp] theorem dropDue_ref (s : State) (d : Due) : (dropDue s d).ref = s.ref := rfl
@[simp] theorem dropDue_planeW (s : State) (d : Due) : (dropDue s d).planeW = s.planeW := rfl
@[simp] theorem dropDue_planeH (s : State) (d : Due) : (dropDue s d).planeH = s.planeH := rfl
@[simp] theorem dropDue_vpix (s : State) (d : Due) : (dropDue s d).vpix = s.vpix := rfl
@[simp] theorem dropDue_priv (s : State) (d : Due) : (dropDue s d).priv = s.priv := rfl
@[simp] theorem dropDue_thermal (s : State) (d : Due) : (dropDue s d).thermal = s.thermal := rfl
@[simp] theorem dropDue_dets (s : State) (d : Due) : (dropDue s d).dets = s.dets := rfl
@[simp] theorem dropDue_inj (s : State) (d : Due) : (dropDue s d).inj = s.inj := rfl
@[simp] theorem dropDue_limiter (s : State) (d : Due) : (dropDue s d).limiter = s.limiter := rfl
@[simp] theorem dropDue_blocks (s : State) (d : Due) : (dropDue s d).blocks = s.blocks := rfl
@[simp] theorem dropDue_ram (s : State) (d : Due) : (dropDue s d).ram = s.ram := rfl
@[simp] theorem dropDue_nvm (s : State) (d : Due) : (dropDue s d).nvm = s.nvm := rfl
@[simp] theorem dropDue_exec (s : State) (d : Due) : (dropDue s d).exec = s.exec := rfl
@[simp] theorem dropDue_touch (s : State) (d : Due) : (dropDue s d).touch = s.touch := rfl
@[simp] theorem dropDue_accent (s : State) (d : Due) : (dropDue s d).accent = s.accent := rfl
@[simp] theorem dropDue_port (s : State) (d : Due) : (dropDue s d).port = s.port := rfl
@[simp] theorem dropDue_duet (s : State) (d : Due) : (dropDue s d).duet = s.duet := rfl
@[simp] theorem dropDue_cond (s : State) (d : Due) : (dropDue s d).cond = s.cond := rfl
@[simp] theorem dropDue_fermata (s : State) (d : Due) : (dropDue s d).fermata = s.fermata := rfl
@[simp] theorem dropDue_fermataNext (s : State) (d : Due) : (dropDue s d).fermataNext = s.fermataNext := rfl
@[simp] theorem dropDue_flailo (s : State) (d : Due) : (dropDue s d).flailo = s.flailo := rfl
@[simp] theorem dropDue_free (s : State) (d : Due) : (dropDue s d).free = s.free := rfl

/-! ### newStamp -/

@[simp] theorem newStamp_pending (s : State) : (newStamp s).pending = s.pending := rfl
@[simp] theorem newStamp_aon (s : State) : (newStamp s).aon = s.aon := rfl
@[simp] theorem newStamp_supply (s : State) : (newStamp s).supply = s.supply := rfl
@[simp] theorem newStamp_boot (s : State) : (newStamp s).boot = s.boot := rfl
@[simp] theorem newStamp_codes (s : State) : (newStamp s).codes = s.codes := rfl
@[simp] theorem newStamp_metro (s : State) : (newStamp s).metro = s.metro := rfl
@[simp] theorem newStamp_ref (s : State) : (newStamp s).ref = s.ref := rfl
@[simp] theorem newStamp_planeW (s : State) : (newStamp s).planeW = s.planeW := rfl
@[simp] theorem newStamp_planeH (s : State) : (newStamp s).planeH = s.planeH := rfl
@[simp] theorem newStamp_vpix (s : State) : (newStamp s).vpix = s.vpix := rfl
@[simp] theorem newStamp_priv (s : State) : (newStamp s).priv = s.priv := rfl
@[simp] theorem newStamp_thermal (s : State) : (newStamp s).thermal = s.thermal := rfl
@[simp] theorem newStamp_dets (s : State) : (newStamp s).dets = s.dets := rfl
@[simp] theorem newStamp_inj (s : State) : (newStamp s).inj = s.inj := rfl
@[simp] theorem newStamp_limiter (s : State) : (newStamp s).limiter = s.limiter := rfl
@[simp] theorem newStamp_blocks (s : State) : (newStamp s).blocks = s.blocks := rfl
@[simp] theorem newStamp_ram (s : State) : (newStamp s).ram = s.ram := rfl
@[simp] theorem newStamp_nvm (s : State) : (newStamp s).nvm = s.nvm := rfl
@[simp] theorem newStamp_exec (s : State) : (newStamp s).exec = s.exec := rfl
@[simp] theorem newStamp_touch (s : State) : (newStamp s).touch = s.touch := rfl
@[simp] theorem newStamp_accent (s : State) : (newStamp s).accent = s.accent := rfl
@[simp] theorem newStamp_port (s : State) : (newStamp s).port = { s.port with stamp := s.port.stamp + 1 } := rfl
@[simp] theorem newStamp_duet (s : State) : (newStamp s).duet = s.duet := rfl
@[simp] theorem newStamp_cond (s : State) : (newStamp s).cond = s.cond := rfl
@[simp] theorem newStamp_fermata (s : State) : (newStamp s).fermata = s.fermata := rfl
@[simp] theorem newStamp_fermataNext (s : State) : (newStamp s).fermataNext = s.fermataNext := rfl
@[simp] theorem newStamp_flailo (s : State) : (newStamp s).flailo = s.flailo := rfl
@[simp] theorem newStamp_free (s : State) : (newStamp s).free = s.free := rfl

/-! ### spendToken -/

@[simp] theorem spendToken_pending (s : State) : (spendToken s).pending = s.pending := rfl
@[simp] theorem spendToken_aon (s : State) : (spendToken s).aon = { s.aon with tokens := s.aon.tokens - 1 } := rfl
@[simp] theorem spendToken_supply (s : State) : (spendToken s).supply = s.supply := rfl
@[simp] theorem spendToken_boot (s : State) : (spendToken s).boot = s.boot := rfl
@[simp] theorem spendToken_codes (s : State) : (spendToken s).codes = s.codes := rfl
@[simp] theorem spendToken_metro (s : State) : (spendToken s).metro = s.metro := rfl
@[simp] theorem spendToken_ref (s : State) : (spendToken s).ref = s.ref := rfl
@[simp] theorem spendToken_planeW (s : State) : (spendToken s).planeW = s.planeW := rfl
@[simp] theorem spendToken_planeH (s : State) : (spendToken s).planeH = s.planeH := rfl
@[simp] theorem spendToken_vpix (s : State) : (spendToken s).vpix = s.vpix := rfl
@[simp] theorem spendToken_priv (s : State) : (spendToken s).priv = s.priv := rfl
@[simp] theorem spendToken_thermal (s : State) : (spendToken s).thermal = s.thermal := rfl
@[simp] theorem spendToken_dets (s : State) : (spendToken s).dets = s.dets := rfl
@[simp] theorem spendToken_inj (s : State) : (spendToken s).inj = s.inj := rfl
@[simp] theorem spendToken_limiter (s : State) : (spendToken s).limiter = s.limiter := rfl
@[simp] theorem spendToken_blocks (s : State) : (spendToken s).blocks = s.blocks := rfl
@[simp] theorem spendToken_ram (s : State) : (spendToken s).ram = s.ram := rfl
@[simp] theorem spendToken_nvm (s : State) : (spendToken s).nvm = s.nvm := rfl
@[simp] theorem spendToken_exec (s : State) : (spendToken s).exec = s.exec := rfl
@[simp] theorem spendToken_touch (s : State) : (spendToken s).touch = s.touch := rfl
@[simp] theorem spendToken_accent (s : State) : (spendToken s).accent = s.accent := rfl
@[simp] theorem spendToken_port (s : State) : (spendToken s).port = s.port := rfl
@[simp] theorem spendToken_duet (s : State) : (spendToken s).duet = s.duet := rfl
@[simp] theorem spendToken_cond (s : State) : (spendToken s).cond = s.cond := rfl
@[simp] theorem spendToken_fermata (s : State) : (spendToken s).fermata = s.fermata := rfl
@[simp] theorem spendToken_fermataNext (s : State) : (spendToken s).fermataNext = s.fermataNext := rfl
@[simp] theorem spendToken_flailo (s : State) : (spendToken s).flailo = s.flailo := rfl
@[simp] theorem spendToken_free (s : State) : (spendToken s).free = s.free := rfl

/-! ### respond -/

@[simp] theorem respond_pending (s : State) (x : Status) (bs : List Byte) : (respond s x bs).pending = s.pending := rfl
@[simp] theorem respond_aon (s : State) (x : Status) (bs : List Byte) : (respond s x bs).aon = s.aon := rfl
@[simp] theorem respond_supply (s : State) (x : Status) (bs : List Byte) : (respond s x bs).supply = s.supply := rfl
@[simp] theorem respond_boot (s : State) (x : Status) (bs : List Byte) : (respond s x bs).boot = s.boot := rfl
@[simp] theorem respond_codes (s : State) (x : Status) (bs : List Byte) : (respond s x bs).codes = s.codes := rfl
@[simp] theorem respond_metro (s : State) (x : Status) (bs : List Byte) : (respond s x bs).metro = s.metro := rfl
@[simp] theorem respond_ref (s : State) (x : Status) (bs : List Byte) : (respond s x bs).ref = s.ref := rfl
@[simp] theorem respond_planeW (s : State) (x : Status) (bs : List Byte) : (respond s x bs).planeW = s.planeW := rfl
@[simp] theorem respond_planeH (s : State) (x : Status) (bs : List Byte) : (respond s x bs).planeH = s.planeH := rfl
@[simp] theorem respond_vpix (s : State) (x : Status) (bs : List Byte) : (respond s x bs).vpix = s.vpix := rfl
@[simp] theorem respond_priv (s : State) (x : Status) (bs : List Byte) : (respond s x bs).priv = s.priv := rfl
@[simp] theorem respond_thermal (s : State) (x : Status) (bs : List Byte) : (respond s x bs).thermal = s.thermal := rfl
@[simp] theorem respond_dets (s : State) (x : Status) (bs : List Byte) : (respond s x bs).dets = s.dets := rfl
@[simp] theorem respond_inj (s : State) (x : Status) (bs : List Byte) : (respond s x bs).inj = s.inj := rfl
@[simp] theorem respond_limiter (s : State) (x : Status) (bs : List Byte) : (respond s x bs).limiter = s.limiter := rfl
@[simp] theorem respond_blocks (s : State) (x : Status) (bs : List Byte) : (respond s x bs).blocks = s.blocks := rfl
@[simp] theorem respond_ram (s : State) (x : Status) (bs : List Byte) : (respond s x bs).ram = s.ram := rfl
@[simp] theorem respond_nvm (s : State) (x : Status) (bs : List Byte) : (respond s x bs).nvm = s.nvm := rfl
@[simp] theorem respond_exec (s : State) (x : Status) (bs : List Byte) : (respond s x bs).exec = s.exec := rfl
@[simp] theorem respond_touch (s : State) (x : Status) (bs : List Byte) : (respond s x bs).touch = s.touch := rfl
@[simp] theorem respond_accent (s : State) (x : Status) (bs : List Byte) : (respond s x bs).accent = s.accent := rfl
@[simp] theorem respond_port (s : State) (x : Status) (bs : List Byte) : (respond s x bs).port = s.port := rfl
@[simp] theorem respond_duet (s : State) (x : Status) (bs : List Byte) : (respond s x bs).duet = s.duet := rfl
@[simp] theorem respond_cond (s : State) (x : Status) (bs : List Byte) : (respond s x bs).cond = s.cond := rfl
@[simp] theorem respond_fermata (s : State) (x : Status) (bs : List Byte) : (respond s x bs).fermata = s.fermata := rfl
@[simp] theorem respond_fermataNext (s : State) (x : Status) (bs : List Byte) : (respond s x bs).fermataNext = s.fermataNext := rfl
@[simp] theorem respond_flailo (s : State) (x : Status) (bs : List Byte) : (respond s x bs).flailo = { s.flailo with response := (x.code :: bs) ++ beBytes 2 (crc16 (x.code :: bs)) } := rfl
@[simp] theorem respond_free (s : State) (x : Status) (bs : List Byte) : (respond s x bs).free = s.free := rfl

/-! ### Planes -/

@[simp] theorem setPlane_plane (s : State) (p : Plane) (x : PlaneState) : (s.setPlane p x).plane p = x := by cases p <;> rfl
@[simp] theorem setPlane_pending (s : State) (p : Plane) (x : PlaneState) : (s.setPlane p x).pending = s.pending := by cases p <;> rfl
@[simp] theorem setPlane_aon (s : State) (p : Plane) (x : PlaneState) : (s.setPlane p x).aon = s.aon := by cases p <;> rfl
@[simp] theorem setPlane_supply (s : State) (p : Plane) (x : PlaneState) : (s.setPlane p x).supply = s.supply := by cases p <;> rfl
@[simp] theorem setPlane_boot (s : State) (p : Plane) (x : PlaneState) : (s.setPlane p x).boot = s.boot := by cases p <;> rfl
@[simp] theorem setPlane_codes (s : State) (p : Plane) (x : PlaneState) : (s.setPlane p x).codes = s.codes := by cases p <;> rfl
@[simp] theorem setPlane_metro (s : State) (p : Plane) (x : PlaneState) : (s.setPlane p x).metro = s.metro := by cases p <;> rfl
@[simp] theorem setPlane_ref (s : State) (p : Plane) (x : PlaneState) : (s.setPlane p x).ref = s.ref := by cases p <;> rfl
@[simp] theorem setPlane_vpix (s : State) (p : Plane) (x : PlaneState) : (s.setPlane p x).vpix = s.vpix := by cases p <;> rfl
@[simp] theorem setPlane_priv (s : State) (p : Plane) (x : PlaneState) : (s.setPlane p x).priv = s.priv := by cases p <;> rfl
@[simp] theorem setPlane_thermal (s : State) (p : Plane) (x : PlaneState) : (s.setPlane p x).thermal = s.thermal := by cases p <;> rfl
@[simp] theorem setPlane_dets (s : State) (p : Plane) (x : PlaneState) : (s.setPlane p x).dets = s.dets := by cases p <;> rfl
@[simp] theorem setPlane_inj (s : State) (p : Plane) (x : PlaneState) : (s.setPlane p x).inj = s.inj := by cases p <;> rfl
@[simp] theorem setPlane_limiter (s : State) (p : Plane) (x : PlaneState) : (s.setPlane p x).limiter = s.limiter := by cases p <;> rfl
@[simp] theorem setPlane_blocks (s : State) (p : Plane) (x : PlaneState) : (s.setPlane p x).blocks = s.blocks := by cases p <;> rfl
@[simp] theorem setPlane_ram (s : State) (p : Plane) (x : PlaneState) : (s.setPlane p x).ram = s.ram := by cases p <;> rfl
@[simp] theorem setPlane_nvm (s : State) (p : Plane) (x : PlaneState) : (s.setPlane p x).nvm = s.nvm := by cases p <;> rfl
@[simp] theorem setPlane_exec (s : State) (p : Plane) (x : PlaneState) : (s.setPlane p x).exec = s.exec := by cases p <;> rfl
@[simp] theorem setPlane_touch (s : State) (p : Plane) (x : PlaneState) : (s.setPlane p x).touch = s.touch := by cases p <;> rfl
@[simp] theorem setPlane_accent (s : State) (p : Plane) (x : PlaneState) : (s.setPlane p x).accent = s.accent := by cases p <;> rfl
@[simp] theorem setPlane_port (s : State) (p : Plane) (x : PlaneState) : (s.setPlane p x).port = s.port := by cases p <;> rfl
@[simp] theorem setPlane_duet (s : State) (p : Plane) (x : PlaneState) : (s.setPlane p x).duet = s.duet := by cases p <;> rfl
@[simp] theorem setPlane_cond (s : State) (p : Plane) (x : PlaneState) : (s.setPlane p x).cond = s.cond := by cases p <;> rfl
@[simp] theorem setPlane_fermata (s : State) (p : Plane) (x : PlaneState) : (s.setPlane p x).fermata = s.fermata := by cases p <;> rfl
@[simp] theorem setPlane_fermataNext (s : State) (p : Plane) (x : PlaneState) : (s.setPlane p x).fermataNext = s.fermataNext := by cases p <;> rfl
@[simp] theorem setPlane_flailo (s : State) (p : Plane) (x : PlaneState) : (s.setPlane p x).flailo = s.flailo := by cases p <;> rfl
@[simp] theorem setPlane_free (s : State) (p : Plane) (x : PlaneState) : (s.setPlane p x).free = s.free := by cases p <;> rfl

theorem setPlane_other (s : State) (p q : Plane) (x : PlaneState) (h : q ≠ p) : (s.setPlane p x).plane q = s.plane q := by
  cases p <;> cases q <;> first | rfl | exact absurd rfl h

/-! ### Sections and detectors -/

@[simp] theorem setSection_section (s : State) (c : Ctx) (x : Section) : (s.setSection c x).section c = some x := by
  simp [State.section]

theorem setSection_other (s : State) (c k : Ctx) (x : Section) (h : k ≠ c) : (s.setSection c x).section k = s.section k := by
  have : c.val ≠ k.val := fun e => h (Fin.ext e.symm)
  simp [State.section, this]

theorem setDet_det (s : State) (d : Nat) (x : Detector) (h : d < 20) : (s.setDet d x).det d = x := by
  simp [State.det, h]

theorem setDet_other (s : State) (d k : Nat) (x : Detector) (h : k ≠ d) : (s.setDet d x).det k = s.det k := by
  simp [State.det, Vector.getElem?_setIfInBounds_ne h.symm]

/-- A trip changes the detectors only. -/
theorem trip_changes (s : State) (d : Nat) (inj : Bool) (v : BitVec 32) : trip s d inj v = { s with dets := (trip s d inj v).dets } := rfl

/-- A trip leaves its detail, and a pending count of one more. -/
theorem trip_det (s : State) (d : Nat) (inj : Bool) (v : BitVec 32) (h : d < 20) :
    ((trip s d inj v).det d).pending = true ∧ ((trip s d inj v).det d).detail = v
      ∧ ((trip s d inj v).det d).count = min ((s.det d).count + 1) 65535 := by
  unfold trip tripAt
  rw [setDet_det _ _ _ h]
  exact ⟨rfl, rfl, rfl⟩

theorem trip_other (s : State) (d k : Nat) (inj : Bool) (v : BitVec 32) (h : k ≠ d) : (trip s d inj v).det k = s.det k :=
  setDet_other _ _ _ _ h

/-- A dropped record changes the count of drops and the flag of the next record. -/
theorem countDrop_changes (s : State) (n : Nat) :
    countDrop s n = { s with aon := { s.aon with
      drops := if n = 0 then s.aon.drops else min (s.aon.drops + n) 65535, dropFlag := s.aon.dropFlag || decide (n ≠ 0) } } := by
  unfold countDrop
  by_cases h : n = 0 <;> simp [h]

/-! ### Stops, counts and reads -/

@[simp] theorem stopPlanes_stop (s : State) : (stopPlanes s).priv.stop = false := rfl
@[simp] theorem stopPlanes_planeW (s : State) : (stopPlanes s).planeW = s.planeW.stop := rfl
@[simp] theorem stopPlanes_planeH (s : State) : (stopPlanes s).planeH = s.planeH.stop := rfl
@[simp] theorem vpixOff_ldo (s : State) : (vpixOff s).vpix.ldo = false := rfl
@[simp] theorem vpixOff_sink (s : State) : (vpixOff s).vpix.sink = s.vpix.above := rfl
@[simp] theorem vpixOff_above (s : State) : (vpixOff s).vpix.above = s.vpix.above := rfl
@[simp] theorem vpixOff_closed (s : State) : (vpixOff s).vpix.closed = s.vpix.closed := rfl
@[simp] theorem vpixOff_busy (s : State) : (vpixOff s).limiter.busy = none := rfl
@[simp] theorem planeReset_stored (x : PlaneState) : x.reset.stored = x.stored := rfl
@[simp] theorem planeReset_power (x : PlaneState) : x.reset.power = .off := rfl
@[simp] theorem countStale_stale (s : State) : (countStale s).cond.stale = s.cond.stale + 1 := rfl
@[simp] theorem countStale_present (s : State) : (countStale s).cond.present = s.cond.present := rfl
@[simp] theorem countStale_gest (s : State) : (countStale s).cond.gest = s.cond.gest := rfl

/-- A row leaves the column accumulator at the slot's end. -/
@[simp] theorem arrive_coming (x : PlaneState) : x.arrive.coming = none := by
  unfold PlaneState.arrive
  split <;> simp_all

/-- Reads of ROM and OTP that find no uncorrectable error do what they do and no more. -/
theorem withRomErrors_none (s : State) (ups : List Upset) (act : State → State) (h : romFailures ups = []) :
    withRomErrors s ups act = act s := by
  unfold withRomErrors
  rw [h]

/-- A bar start whose reads find no error begins its bar and no more. -/
theorem startBar_none (s : State) (begins : State → State) (h : romFailures s.metro.barErrors = []) :
    startBar s begins = begins { s with metro := { s.metro with barErrors := [] } } := by
  unfold startBar
  rw [withRomErrors_none _ _ _ h]

/-- Outside step 3, and before its last slot, a slot counts and does no more. -/
theorem countSlot_changes (s : State) (h : s.inStep3 = false ∨ s.cond.wait < 31) :
    countSlot s = { s with
      fermata := s.fermata.map fun f : Fermata => { f with len := min (f.len + 1) 65535 }
      duet := { s.duet with quiet := min (s.duet.quiet + 1) 65535 }
      cond := { s.cond with wait := if s.inStep3 then s.cond.wait + 1 else s.cond.wait } } := by
  have e : ∀ f d, State.inStep3 { s with fermata := f, duet := d } = s.inStep3 := fun _ _ => rfl
  unfold countSlot
  dsimp only
  rw [e]
  cases k : s.inStep3
  · rfl
  · have w : s.cond.wait < 31 := by simpa [k] using h
    rw [if_pos rfl, if_neg (by omega)]
    rfl

/-! ### The link and reset -/

/-- What the link discards changes the count of drops and the flag of the next record. -/
theorem discardLink_changes (s : State) :
    discardLink s = { s with aon := { s.aon with drops := (discardLink s).aon.drops, dropFlag := (discardLink s).aon.dropFlag } } := by
  unfold discardLink
  rw [countDrop_changes, countDrop_changes]

@[simp] theorem enterReset_pending (s : State) (e : Nat) (c : Bool) : (enterReset s e c).pending = s.pending := by
  simp [enterReset, tearDown, discardRing, discardLink, countDrop_changes]
@[simp] theorem enterReset_phase (s : State) (e : Nat) (c : Bool) : (enterReset s e c).cond.phase = .reset := rfl
@[simp] theorem enterReset_metro (s : State) (e : Nat) (c : Bool) : (enterReset s e c).metro = Metro.off := rfl
@[simp] theorem enterReset_ram (s : State) (e : Nat) (c : Bool) : (enterReset s e c).ram = Ram.empty := rfl
@[simp] theorem enterReset_exec (s : State) (e : Nat) (c : Bool) : (enterReset s e c).exec = Exec.zero := rfl
@[simp] theorem enterReset_entry (s : State) (e : Nat) (c : Bool) : (enterReset s e c).boot.entry = e := rfl
@[simp] theorem enterReset_nvm (s : State) (e : Nat) (c : Bool) : (enterReset s e c).nvm = s.nvm := by
  simp [enterReset, tearDown, discardRing, discardLink, countDrop_changes]
@[simp] theorem enterReset_duet (s : State) (e : Nat) (c : Bool) : (enterReset s e c).duet = { Duet.off with tx := s.duet.tx } := by
  simp [enterReset, tearDown, discardRing, discardLink, countDrop_changes]

/-! ### The step -/

/-- On an empty queue the block idles. -/
theorem step_nil (s : State) (h : s.pending = []) : step s = .next s := by
  unfold step
  rw [h]

end Sys2Proof.Laws
end

