-- ==== Sys2Proof/Tests/Slice0.lean ====
section
/-!
SUPPORT. Tests: ill-formed commands are refused, words of the Soli engine written out from Tables 10-2 and 10-3 decode as they stand there, and
for each statement with hypotheses a state and operands that meet them, at the boundaries of its clauses.
-/
namespace Sys2Proof.Tests

open Sys2Proof.Machine Sys2Proof.Safety

/-! ### Well-formed commands -/

/-- A Flailo command without data, and one whose data is shorter than its length says. -/
def head0 : FlailoHead := ⟨0, 0, [], 0⟩
def headShort : FlailoHead := ⟨0, 8, [1], 0⟩

theorem test_wf_black : (Instr.imagerStepDone .w ⟨0, []⟩).wf = false ∧ (Instr.imagerStepDone .h ⟨0, List.replicate 1280 0⟩).wf = true := by
  refine ⟨by decide, ?_⟩
  show decide ((List.replicate 1280 (0 : Code)).length = 4 * planeWidth .h) = true
  rw [List.length_replicate]
  decide

theorem test_wf_scan : (Instr.scanComplete [] ⟨[], []⟩).wf = false
    ∧ (Instr.scanComplete (List.replicate 8 (List.replicate 16 0)) ⟨[[], []], []⟩).wf = false
    ∧ (Instr.scanComplete (List.replicate 8 (List.replicate 16 0)) ⟨List.replicate 2 (List.replicate 16 0), []⟩).wf = true := by decide

theorem test_wf_data : (Instr.load headShort 7000 []).wf = false ∧ (Instr.verify headShort).wf = false
    ∧ (Instr.calWrite headShort 7000 []).wf = false ∧ (Instr.seal headShort).wf = false ∧ (Instr.info headShort).wf = false
    ∧ (Instr.flailoUnknownOpcode 9 headShort).wf = false ∧ (Instr.read headShort).wf = false ∧ (Instr.load head0 7000 []).wf = true := by decide

theorem test_wf_shape : (Instr.darkCal head0 true ⟨[], []⟩ []).wf = false ∧ (Instr.darkCal headShort true ⟨[], []⟩ []).wf = false
    ∧ (Instr.touchCal head0 []).wf = false ∧ (Instr.touchCal headShort []).wf = false := by decide

/-- An ill-formed command is refused by name. -/
theorem test_refused : exec (.imagerStepDone .w ⟨0, []⟩) State.reset = .refused (.illFormed "IMAGER_STEP_DONE") := rfl

/-! ### Words of the Soli engine, bit by bit -/

/-- SREG v1, 0: OP 0x28, D 1. -/
theorem test_decode_sreg : soliDecode 0 0b101000_00001_00000_000000000000_0000 = .sreg 0 Guard.always 1 0 := by decide

/-- CMPI.LT p1, v1, 5: OP 0x2A, PD 1, COND 2, A 1, IMM11 5. -/
theorem test_decode_cmpi : soliDecode 0 0b101010_001_010_00001_00000000101_0000 = .cmpi 0 Guard.always 1 .lt 1 5 := by decide

/-- RPUSH +6: OP 0x1A, no guard. -/
theorem test_decode_rpush : soliDecode 0 0b011010_0000000000000000000110_0000 = .rpush 0 6 := by decide

/-- BRA +3 under not p1: OP 0x19, G 1, N 1. -/
theorem test_decode_bra : soliDecode 0 0b011001_0000000000000000000011_1_001 = .bra 0 ⟨1, true⟩ 3 := by decide

/-- ADDI v2, v0, 100: OP 0x20, D 2. -/
theorem test_decode_addi : soliDecode 0 0b100000_00010_00000_000001100100_0000 = .addi 0 Guard.always 2 0 100 := by decide

/-- ADD v3, v1, v2: OP 0x01. -/
theorem test_decode_add : soliDecode 0 0b000001_00011_00001_00010_000_0000_0000 = .add 0 Guard.always 3 1 2 := by decide

/-- LDH v4, [v2 - 2], counter 1: OP 0x31, OFF10 -2. -/
theorem test_decode_ldh : soliDecode 0 0b110001_00100_00010_1111111110_01_0000 = .ldh 0 Guard.always 4 2 0x3FE 1 [] := by decide

/-- STW v5, [v6 + 4]: OP 0x35. -/
theorem test_decode_stw : soliDecode 0 0b110101_00101_00110_0000000100_00_0000 = .stw 0 Guard.always 5 6 4 [] := by decide

/-- LUI v7, 0x8001: OP 0x27, IMM16 above bit 4, which is 0. -/
theorem test_decode_lui : soliDecode 0 0b100111_00111_1000000000000001_0_0000 = .lui 0 Guard.always 7 0x8001 := by decide

/-- PLOG p2 = p1 AND NOT p3: OP 0x2B, LOP 3. -/
theorem test_decode_plog : soliDecode 0 0b101011_010_11_001_011_00000000000_0000 = .plog 0 Guard.always 2 .andNot 1 3 := by decide

/-- CPOST cue 9, +2: OP 0x3D. -/
theorem test_decode_cpost : soliDecode 0 0b111101_0001001_000000010_000000_0000 = .cpost 0 Guard.always 9 2 [] := by decide

/-- WAITLC counter 3, 5: OP 0x38. -/
theorem test_decode_waitlc : soliDecode 0 0b111000_0000000000_000101_0000_11_0000 = .waitlc 0 Guard.always 5 3 := by decide

/-- RSYNC, and the same opcode with a bit that must be 0 set; an opcode that no row has. -/
theorem test_decode_invalid : soliDecode 0 0b011011_00000000000000000000000000 = .rsync 0
    ∧ soliDecode 0 0b011011_00000000000000000000000001 = invalidWord 0 ∧ soliDecode 0 (0x3F * 2 ^ 26) = invalidWord 0 := by decide

/-! ### States of the witnesses -/

/-- ROM and OTP whose image in the first OTP slot, at SEL 6, has these bytes. -/
def image (cells : List Host.Cell) : Nvm := ⟨[], cells.map fun x => (0x400000 + x.1, x.2), [0x80000], true, []⟩

/-- A running module with an empty image at SEL 6, on an otherwise idle bar. -/
def up : State := { State.reset with
  nvm := ⟨[], [], [3], true, []⟩
  aon := { Aon.lost with on := true, leak := some 3, bar := 7 }
  supply := ⟨true, true, false, false, true, true, true, false, 4⟩
  boot := { Boot.zero with straps := ⟨6, false, false, false⟩ }
  metro := { Metro.off with on := true, slot := 100, len := 1600000 }
  cond := { Conductor.zero with phase := .running, state := .mezzo } }

/-- The same module in another phase, at another slot, with fixed actions or entries to come. -/
def phased (p : Phase) : State := { up with cond := { up.cond with phase := p } }
def atSlot (n : Nat) : State := { up with metro := { up.metro with slot := n } }
def dueIn (d : Due) : State := { up with metro := { up.metro with due := [d] } }
def entryIn (kind : Nat) (arg : BitVec 16) : State := { up with metro := { up.metro with issue := [⟨100, kind, arg⟩] } }

/-! ### The whole machine and its arithmetic -/

/-- Hypotheses of the statements over every command: one that has a next state, is no release, no edge of PRIV_N and no latch moment, on a sealed part
with a programmed word, outside Flailo mode. -/
theorem witness_command : (∃ t, exec .vioValid up = .next t) ∧ up.nvm.sealed = true ∧ up.cond.phase ≠ .flailo ∧ 3 ∈ up.nvm.marks :=
  ⟨⟨_, rfl⟩, by decide⟩

theorem witness_step : Inv up ∧ ∃ t, step { up with pending := [.vioValid] } = .next t :=
  ⟨⟨by decide, by decide, by decide, by decide, by decide, by decide, by decide, by decide, by decide, by decide, by decide, by decide,
    by decide, by decide⟩, _, rfl⟩

theorem witness_tacet : (phased .tacet).cond.phase = .tacet ∧ (∃ t, exec .wakeHighInTacet (phased .tacet) = .next t)
    ∧ ∃ t, exec .rstNLow { phased .tacet with duet := { Duet.off with link := .up } } = .next t := ⟨rfl, ⟨_, rfl⟩, _, rfl⟩

/-- R174 at a tie of either sign. -/
theorem test_rounding : rshift 3 1 = 2 ∧ rshift (-3) 1 = -2 ∧ roundDiv 5 2 = 3 ∧ roundDiv (-5) 2 = -3 := by decide

def ram1 : Ram := ⟨[(0x10000008, 5)], [0x2000001], []⟩
def ramBad : Ram := ⟨[(0x10000008, 5)], [0x2000001], [0x2000001]⟩

/-- Store, read and gating: a word with its flag clear, one with an error, stores of 1 and of 8 bytes. -/
theorem witness_written : ram1.wf = true ∧ 0x2000002 ∉ ram1.flags ∧ ram1.bad.contains 0x2000002 = false
    ∧ (∀ x ∈ [(0x10000010, (1 : Byte))], x.1 / 8 = 0x2000002 ∧ x.1 ≠ 0x10000011) ∧ 0x10000011 / 8 = 0x2000002
    ∧ ramBad.wf = true ∧ 0x2000001 ∈ ramBad.bad ∧ ([1, 2, 3, 4, 5, 6, 7, 8] : List Byte).length = 8 := by decide

/-- A reset that has ended its reading. -/
def latching : State := { State.reset with
  aon := { Aon.lost with on := true }
  supply := ⟨true, true, false, true, true, true, true, false, 4⟩
  boot := { Boot.zero with started := true, pairs := 1, pads := Vector.replicate 6 ⟨some 2, false⟩ }
  cond := { Conductor.zero with phase := .reset } }

def stopped : State := { up with exec := { up.exec with stopped := true, abandon := true } }

theorem witness_scrub : (latching.cond.phase = .reset ∧ latching.supply.vrst = true ∧ latching.supply.vio = true ∧ readingDone latching.boot = true)
    ∧ (phased .tacetExit).cond.phase = .tacetExit ∧ (stopped.counting = true ∧ stopped.exec.abandon = true ∧ stopped.metro.due = [] ∧ stopped.metro.slot0 = false) := by decide

theorem witness_engineWrite : up.ram.wf = true ∧ ([7] : List Byte) ≠ [] ∧ ∀ w ∈ up.ram.bad, ¬(5 ≤ w ∧ w ≤ 5) := by decide

theorem witness_sequence : State.reset.aon.on = false ∧ (∃ t, exec .rstNLow up = .next t) ∧ ∃ t, exec .fermataEntry up = .next t :=
  ⟨rfl, ⟨_, rfl⟩, _, rfl⟩

/-- R39 and R274 at the edge that fills the gate. -/
theorem witness_gate : gateEdges 1 120 false (32959, 6) = ((119, 7), false) ∧ gateEdges 1 120 true (32959, 0) = ((119, 1), true)
    ∧ gateEdges 1 120 false (32959, 7) = ((0, 8), false) ∧ gateEdges 3 120 false (0, 8) = ((0, 8), false)
    ∧ gateEdges 1 1 true (32958, 0) = ((32959, 0), false) := by decide

/-! ### Soli instructions -/

/-- A body of 64 bytes at SEL 6: a launch record at offset 0 whose code is the word `w` at offset 48. -/
def soliRom (w : Nat) : List Host.Cell :=
  [(8, 64), (80, 48), (84, 1), (112, BitVec.ofNat 8 w), (113, BitVec.ofNat 8 (w / 2 ^ 8)), (114, BitVec.ofNat 8 (w / 2 ^ 16)),
    (115, BitVec.ofNat 8 (w / 2 ^ 24))]

def section0 : Section := Section.start 0 0

/-- Section 0 in context 0 fetches the word `w`. -/
def soliAt (w : Nat) (x : Section) : State := { up with
  nvm := image (soliRom w)
  exec := { up.exec with sections := up.exec.sections.set 0 (some x) } }

def word (i : Instr) : Nat := (soliEncode i).getD 0

def g0 : Guard := Guard.always

/-- One instruction of every form. -/
def samples1 : List Instr :=
  [.add 0 g0 1 2 3, .sub 0 g0 1 2 3, .mul 0 g0 1 2 3, .mulh 0 g0 1 2 3, .and 0 g0 1 2 3, .or 0 g0 1 2 3, .xor 0 g0 1 2 3, .shl 0 g0 1 2 3,
    .shr 0 g0 1 2 3, .sra 0 g0 1 2 3, .min 0 g0 1 2 3, .max 0 g0 1 2 3]

def samples2 : List Instr :=
  [.minu 0 g0 1 2 3, .maxu 0 g0 1 2 3, .rshr 0 g0 1 2 3, .clamp 0 g0 1 2 3, .mac 0 g0 1 2 3, .dot4s 0 g0 1 2 3, .dot4us 0 g0 1 2 3,
    .abs 0 g0 1 2, .lzc 0 g0 1 2, .exp 0 g0 1 2, .rcp 0 g0 1 2, .rsq 0 g0 1 2]

def samples3 : List Instr :=
  [.addi 0 g0 1 2 3, .andi 0 g0 1 2 3, .ori 0 g0 1 2 3, .xori 0 g0 1 2 3, .shli 0 g0 1 2 31, .shri 0 g0 1 2 31, .srai 0 g0 1 2 31,
    .lui 0 g0 1 0x8000, .sel 0 g0 1 2 3 4, .shfl 0 g0 1 2 3, .rsc 0 g0 1 2 3, .sreg 0 g0 1 5]

def samples4 : List Instr :=
  [.cmp 0 g0 1 .geu 2 3, .cmpi 0 g0 1 .lt 2 0x400, .plog 0 g0 1 .xor 2 3, .vote 0 g0 1 true 2, .vote 0 g0 1 false 2, .bra 0 g0 3,
    .rpush 0 3, .rsync 0, .park 0 ⟨1, false⟩, .endThreads 0 ⟨1, true⟩ [], .waitlc 0 g0 0 1, .cwait 0 g0 5 2]

def samples5 : List Instr :=
  [.cpost 0 g0 5 511 [], .ldw 0 g0 1 2 3 1 [], .ldh 0 g0 1 2 3 1 [], .ldhu 0 g0 1 2 3 1 [], .ldb 0 g0 1 2 3 1 [], .ldbu 0 g0 1 2 3 1 [],
    .ldc 0 g0 1 2 3 1 [], .stw 0 g0 1 2 3 [], .sth 0 g0 1 2 3 [], .stb 0 g0 1 2 3 []]

/-- Every form is fetched by a running section: the hypotheses of the statements about instructions. -/
theorem witness_issues : (∀ i ∈ samples1, nextInstr (soliAt (word i) section0) 0 section0 = i)
    ∧ (∀ i ∈ samples2, nextInstr (soliAt (word i) section0) 0 section0 = i)
    ∧ (∀ i ∈ samples3, nextInstr (soliAt (word i) section0) 0 section0 = i)
    ∧ (∀ i ∈ samples4, nextInstr (soliAt (word i) section0) 0 section0 = i)
    ∧ (∀ i ∈ samples5, nextInstr (soliAt (word i) section0) 0 section0 = i)
    ∧ section0.ended = false ∧ ∀ w, (soliAt w section0).section 0 = some section0 :=
  ⟨by decide, by decide, by decide, by decide, by decide, by decide, fun w => by simp [State.section, soliAt]⟩

/-- The lanes act, and the load counters are below 63, at 62 too. -/
theorem witness_acts : section0.acts Guard.always 0 = true ∧ (∀ j : Fin 16, j < 0 → section0.acts Guard.always j = false)
    ∧ section0.lcs[1] < 63 ∧ ({ section0 with lcs := Vector.replicate 4 62 } : Section).lcs[1] < 63
    ∧ ({ section0 with lcs := Vector.replicate 4 63 } : Section).lcs[1] = 63
    ∧ section0.lcs[1] ≤ (0 : BitVec 6).toNat ∧ (0 : BitVec 6).toNat < ({ section0 with lcs := Vector.replicate 4 1 } : Section).lcs[1]
    ∧ up.exec.abandon = false := by decide

/-- Lanes that take a branch and lanes that do not, with room on the stack and without. -/
def diverging (n : Nat) : Section := { section0 with
  lanes := Vector.ofFn fun k : Fin 16 => if k.val < 8 then ⟨Vector.replicate 32 0, Vector.replicate 8 true⟩ else Lane.zero
  stack := List.replicate n (0xFFFF, 0) }

theorem witness_branch : (diverging 7).stack.length < 8 ∧ ¬(diverging 8).stack.length < 8 ∧ (diverging 7).acts ⟨1, false⟩ 0 = true
    ∧ (diverging 7).acts ⟨1, false⟩ 15 = false ∧ (diverging 7).active.getLsbD 15 = true
    ∧ nextInstr (soliAt (word (.bra 0 ⟨1, false⟩ 3)) (diverging 8)) 0 (diverging 8) = .bra 0 ⟨1, false⟩ 3 := by decide

theorem witness_brokenFetch : (soliAt 0 section0).section 0 = some section0 ∧ codeWordOff (soliAt 0 section0) section0 section0.pc = some 48
    ∧ bodyWord (soliAt 0 section0) 48 = 0x400070 / 8 := by decide

/-- A fetch outside a code range of one word. -/
theorem witness_refusedFetch : codeWordOff (soliAt 0 section0) { section0 with pc := 1 } 1 = none
    ∧ codeWordOff (soliAt 0 section0) { section0 with pc := -1 } (-1) = none := by decide

def waiting : PendingLoad := ⟨4, 1, Vector.replicate 16 9, 0xFFFF⟩

theorem witness_return : (soliAt 0 { section0 with loads := [waiting] }).section 0 = some { section0 with loads := [waiting] }
    ∧ ({ section0 with loads := [waiting] } : Section).loads[0]? = some waiting
    ∧ waiting.left &&& ~~~0xFFFF = 0 ∧ waiting.left &&& ~~~0xFFFE ≠ 0 := by decide

/-- Every lane's registers hold `a`. -/
def storing (a : Word) : Section := { section0 with lanes := Vector.replicate 16 ⟨Vector.replicate 32 a, Vector.replicate 8 false⟩ }

/-- In a state whose score opens bank 0 lane 15 stores the first and last byte of a word there, nothing beyond it, and nothing at a misaligned
address. -/
theorem witness_store :
    let s := { soliAt (word (.stw 0 Guard.always 1 2 0 [])) (storing 0x10000000) with
      nvm := image ([(8, 112), (9, 2), (80, 48), (84, 1)] ++ [(115, BitVec.ofNat 8 (word (.stw 0 Guard.always 1 2 0 []) / 2 ^ 24)),
        (114, BitVec.ofNat 8 (word (.stw 0 Guard.always 1 2 0 []) / 2 ^ 16)), (152, 128), (156, 240), (312, 1)]) }
    nextInstr s 0 (storing 0x10000000) = .stw 0 Guard.always 1 2 0 [] ∧ s.ram.wf = true
      ∧ storesAt s (storing 0x10000000) Guard.always 2 4 0 15 0x10000000 = true
      ∧ storesAt s (storing 0x10000000) Guard.always 2 4 0 15 0x10000003 = true
      ∧ (∀ k : Fin 16, storesAt s (storing 0x10000000) Guard.always 2 4 0 k 0x10000004 = false)
      ∧ ∀ k : Fin 16, storesAt s (storing 0x10000002) Guard.always 2 4 0 k 0x10000002 = false := by decide

/-! ### Power, planes and the limiter -/

theorem witness_reading : (State.reset.aon.on = false ∧ up.aon.on = true)
    ∧ (let s := { latching with boot := { latching.boot with started := false } }; s.cond.phase = .reset ∧ s.boot.started = false)
    ∧ (let s := { latching with boot := { latching.boot with pairs := 7, pads := Vector.replicate 6 ⟨none, false⟩ } }
       s.cond.phase = .reset ∧ s.boot.started = true ∧ readingDone s.boot = false)
    ∧ (latching.cond.phase = .reset ∧ latching.boot.started = true ∧ (7 : BitVec 3) ≠ latching.boot.selSampled) := by decide

theorem witness_resetEntry : up.outOfReset = true ∧ (∀ k, up.cond.phase ≠ .tacetEntry k) ∧ (phased (.tacetEntry 3)).cond.phase = .tacetEntry 3
    ∧ up.aon.on = true ∧ up.supply.vrst = true ∧ up.supply.armed = true :=
  ⟨by decide, fun k h => (by cases h), by decide⟩

/-- Both ends of the latch moment: an unsealed part with TEST, SEL 7 and VPP, and another. -/
theorem witness_latch : (latching.cond.phase = .reset ∧ latching.supply.vrst = true ∧ latching.supply.vio = true ∧ readingDone latching.boot = true)
    ∧ latching.nvm.sealed = false := by decide

/-- An image with one used state, no rule, no operation: header, digest, directory, state table, schedules, verdict map and limits. -/
def imageHead : List Host.Cell :=
  [(0, 80), (1, 75), (2, 83), (3, 67), (4, 1), (8, 112), (9, 2), (16, 55), (17, 235), (18, 96), (19, 43), (20, 18), (21, 115), (22, 243), (23, 108),
    (24, 120), (25, 226), (26, 20), (27, 242), (28, 57), (29, 21), (30, 72), (31, 155)]

def imageTail : List Host.Cell :=
  [(32, 102), (33, 196), (34, 64), (35, 67), (36, 250), (37, 118), (38, 51), (39, 10), (40, 17), (41, 225), (42, 49), (43, 149), (44, 211), (45, 205),
    (46, 36), (47, 29), (72, 128), (76, 8), (80, 136), (84, 24), (144, 160), (148, 208), (152, 112), (153, 1), (157, 1), (192, 1)]

def imageEnd : List Host.Cell := [(227, 16), (229, 1), (432, 1), (433, 1), (484, 50), (488, 1), (500, 20), (540, 240)]

def verifying : State := { phased (.verifying false) with nvm := image (imageHead ++ imageTail ++ imageEnd) }

theorem witness_fails : (phased (.verifying true)).cond.phase = .verifying true ∧ (imageFault (phased (.verifying true)) true).isSome = true
    ∧ (∃ u ∈ [(⟨0, true⟩ : Upset)], u.multi = true) ∧ up.relays = false := by decide

/-- A plane that is starting, the LED on and VPIX above 0.2 V. -/
def starting : State := { up with
  planeW := { up.planeW with power := .starting }
  vpix := ⟨true, true, true, true⟩
  priv := { up.priv with asserted := false }
  metro := { up.metro with due := [.planeRestart] } }

theorem witness_planes : (starting.vpix.sink = true ∧ planesStarting starting = true ∧ starting.inject 10 = false ∧ starting.inject 11 = false ∧ starting.priv.held = false)
    ∧ ((starting.plane .w).power = .starting ∧ starting.vpix.ldo = true ∧ starting.vpix.closed = true)
    ∧ (let s := { starting with vpix := ⟨true, false, true, true⟩ }; s.vpix.above = true ∧ s.vpix.ldo = false)
    ∧ (let s := { starting with vpix := ⟨true, true, true, false⟩ }; s.vpix.above = true ∧ s.vpix.closed = false)
    ∧ Due.planeRestart ∈ starting.metro.due
    ∧ (starting.vpix.above = true ∧ (false || true) = true) := by decide

/-- A plane's power-up that ends in an acquisition hold, and one that comes up with the down-ramp's other plane off, or is held off. -/
theorem witness_planeHold : (let s := { starting with metro := { starting.metro with hold := true } }
      s.metro.slot * s.metro.len / 448 ≤ 400000 ∧ s.metro.hold = true)
    ∧ (let s := { starting with limiter := { Limiter.idle with up := true } }
      s.limiter.up = true ∧ s.priv.held = false ∧ s.inject 10 = false ∧ s.inject 11 = false)
    ∧ (let s := { up with limiter := { Limiter.idle with up := true }, priv := { up.priv with byPriv := true } }; s.limiter.up = true ∧ s.priv.held = true)
    ∧ (let s := { starting with limiter := { Limiter.idle with up := false } }; s.limiter.up = false ∧ (s.plane .h).power = .off) := by decide

/-- A ramp 1 uA below its end, upward and downward. -/
def ramp (up' : Bool) : State := { up with limiter := { Limiter.idle with
  on := true, up := up', iOld := if up' then 1000 else 9000, iNew := if up' then 9000 else 1000, allow := if up' then 8999 else 1001 } }

theorem witness_limiter : ((ramp true).limiter.on = true ∧ (ramp true).limiter.paused = false ∧ (ramp true).limiter.up = true
      ∧ (ramp true).limiter.iOld < (ramp true).limiter.iNew ∧ (ramp true).limiter.allow ≤ (ramp true).limiter.iNew)
    ∧ ((ramp false).limiter.up = false ∧ (ramp false).limiter.iNew < (ramp false).limiter.iOld
      ∧ (ramp false).limiter.iNew ≤ (ramp false).limiter.allow) := by decide

/-- A ramp from 0 to 9000 uA with the held store and bank 3 to switch, at `i`; Tacet entry's ramp, from and to 0. -/
def acting (i : Int) : State := { up with
  boot := { up.boot with slew := 0 }, limiter := { Limiter.idle with on := true, up := true, iNew := 9000, allow := i, acts := [.held, .bank 3] } }
def flat : State := { phased (.tacetEntry 5) with limiter := { Limiter.idle with on := true, acts := [.held] } }

def ticked (s : State) : Option (List Machine.Action × Bool × Phase) :=
  match exec .limiterTick s with
  | .next t => some (t.limiter.acts, t.limiter.on, t.cond.phase)
  | _ => none

/-- R94: of two actions the first at half the height, the second at its end; all of them at once on a ramp without height. -/
theorem test_tick : ticked (acting 4494) = some ([.held, .bank 3], true, .running) ∧ ticked (acting 4495) = some ([.bank 3], true, .running)
    ∧ ticked (acting 8995) = some ([], false, .running) ∧ ticked flat = some ([], false, .tacetEntry 4)
    ∧ ticked { acting 0 with limiter := { (acting 0).limiter with busy := some .w } } = some ([.held, .bank 3], true, .running) := by decide

/-- Errors that a read of the digest at SEL 6 finds, single-bit and multi-bit ones, and one outside ROM and OTP. -/
theorem witness_digestErrors : romFailures [⟨0x400010, true⟩] = [0x80002] ∧ romFailures [⟨0x400010, false⟩, ⟨0x10000000, true⟩] = []
    ∧ latching.relays = false ∧ up.aon.on = true ∧ latching.supply.vrst = true ∧ latching.cond.phase = .reset := by decide

/-- The three ends of the latch moment: Flailo mode, a digest that could not be read, verification. -/
theorem witness_latchEnds : let l : Straps := ⟨7, false, false, true⟩
    (latching.nvm.sealed = false ∧ l.test = true ∧ l.sel = 7) ∧ ({ latching.boot with broken := true } : Boot).broken = true
      ∧ ¬(({ l with sel := 6 } : Straps).sel = 7) ∧ latching.boot.broken = false := by decide

/-- A plane that is powered in slot 100 at its last cycle and just after it, VPIX that falls in step 6, restarts under held injections. -/
theorem witness_planeEnds : (Instr.imagerStepDone .w ⟨360713, List.replicate 2560 7⟩).wf = true
    ∧ (starting.metro.slot * starting.metro.len / 448 ≤ 357142 ∧ 360713 < (starting.metro.slot + 1) * starting.metro.len / 448)
    ∧ ¬(360714 < (starting.metro.slot + 1) * starting.metro.len / 448)
    ∧ (let s := { starting with vpix := ⟨true, false, true, true⟩, cond := { up.cond with phase := .tacetEntry 6 } }
       s.vpix.above = true ∧ s.vpix.ldo = false ∧ s.cond.phase = .tacetEntry 6)
    ∧ (∀ c ∈ [(10 : RzCode), 11], let s := { starting with inj := { up.inj with code := c } }
       Due.planeRestart ∈ s.metro.due ∧ (s.inject 10 = true ∨ s.inject 11 = true) ∧ s.priv.byLed = false ∧ s.priv.byPath = false) :=
  ⟨by show decide ((List.replicate 2560 (7 : Code)).length = 4 * planeWidth .w) = true
      rw [List.length_replicate]
      decide, by decide⟩

/-! ### The Metronome and the Conductor -/

theorem witness_slot : (slotDone (atSlot 446) = true ∧ (atSlot 446).metro.slot < 447 ∧ ((atSlot 446).metro.slot0 && (atSlot 446).inj.newly) = false)
    ∧ (let s := { atSlot 447 with metro := { up.metro with slot := 447, slot0 := true } }; slotDone s = true ∧ s.metro.slot0 = true) := by decide

/-- Plane W reads rows at slot 398. -/
def reading : State := { atSlot 398 with planeW := { PlaneState.off with power := .on, reading := true } }

theorem witness_row : (slotDone reading = true ∧ reading.cond.phase ≠ .resetEntry ∧ reading.planeW.reading = true ∧ reading.planeW.bin = 1 ∧ reading.planeW.acc = []
      ∧ reading.priv.stop = false ∧ reading.priv.ldoOff = false ∧ (reading.metro.slot0 && reading.inj.newly) = false ∧ reading.metro.slot < 399)
    ∧ ∃ t, exec (.slotBoundary (Vector.replicate 640 1023) (Vector.replicate 320 0) ⟨.high, [], []⟩) reading = .next t := ⟨by decide, _, rfl⟩

/-- A read that finds an uncorrectable error at the starts of a bar and of one after a hold, and in a slot. -/
theorem witness_readErrors : romFailures [⟨0x400010, true⟩] ≠ [] ∧ romFailures (atSlot 447).metro.barErrors = []
    ∧ (let s := { atSlot 447 with metro := { up.metro with slot := 447, barErrors := [⟨0x400010, true⟩] } }
      slotDone s = true ∧ s.follower = false ∧ romFailures s.metro.barErrors ≠ []) ∧ slotDone (atSlot 447) = true ∧ (atSlot 447).metro.slot0 = false
    ∧ (let s := { atSlot 447 with metro := { up.metro with slot := 447, hold := true } }; s.running = true ∧ s.metro.hold = true)
    ∧ slotDone up = true ∧ up.running = true ∧ up.metro.slot < 447 := by decide

theorem witness_barStart : (slotDone (atSlot 447) = true ∧ (atSlot 447).metro.slot = 447 ∧ (atSlot 447).metro.slot0 = false
      ∧ (atSlot 447).running = true ∧ (atSlot 447).fermata = none
      ∧ ((atSlot 447).follower && !(atSlot 447).metro.aligned && divisorsEqual (atSlot 447)) = false)
    ∧ (let s := { atSlot 447 with cond := { up.cond with next := some .forte } }; s.cond.next = some .forte ∧ PState.forte ≠ .tacet) := by decide

/-- A follower: the link is up, ROLE differs from the epoch's bit 0. -/
def following : State := { atSlot 447 with
  boot := { up.boot with straps := ⟨6, true, true, false⟩ }
  duet := { Duet.off with link := .up } }

def held : State := { following with metro := { following.metro with hold := true } }

theorem witness_hold : (slotDone following = true ∧ following.metro.slot = 447 ∧ following.metro.slot0 = false ∧ following.running = true
      ∧ following.follower = true ∧ following.metro.aligned = false ∧ divisorsEqual following = true)
    ∧ held.running = true ∧ held.metro.hold = true := by decide

/-- Samples of a slot: an exposure; a junction at 95, 110, 90 and 100 degrees with the counters at their last value. -/
theorem witness_samples : (let s := { up with planeW := { PlaneState.off with power := .on } }
      s.running = true ∧ s.metro.on = true ∧ (s.plane .w).power = .on)
    ∧ Due.thermal ∈ (dueIn .thermal).metro.due ∧ Due.resistors ∈ (dueIn .resistors).metro.due ∧ Due.leak ∈ (dueIn .leak).metro.due
    ∧ Due.conductor ∈ (dueIn .conductor).metro.due := by decide

/-- Throttle and shutdown after one thermal sample. -/
def sampled (j : Int) (th : Thermal) : Option (Bool × Bool) :=
  match exec (.thermalSample j) { dueIn .thermal with thermal := th } with
  | .next t => some (t.thermal.throttle, t.thermal.shutdown)
  | _ => none

/-- Both sides of the thresholds of R99 and R100. -/
theorem test_thermal : sampled 95 { Thermal.zero with hot := 1 } = some (true, false) ∧ sampled 94 { Thermal.zero with hot := 1 } = some (false, false)
    ∧ sampled 110 { Thermal.zero with hot := 1 } = some (true, true) := by decide

theorem test_thermal_end : sampled 90 { Thermal.zero with throttle := true, cool90 := 15 } = some (false, false)
    ∧ sampled 91 { Thermal.zero with throttle := true, cool90 := 15 } = some (true, false)
    ∧ sampled 90 { Thermal.zero with throttle := true, cool90 := 14 } = some (true, false) := by decide

/-- A slot of a MARK run at a RUBATO code. -/
def marking (c : RzCode) : State := { up with
  metro := { up.metro with run := true, sched := true }, codes := { up.codes with rubato := ⟨c, none, none⟩ } }

def pixels (v : Code) : Vector Code 640 × Vector Code 320 := (Vector.replicate 640 v, Vector.replicate 320 v)

def nextSlot (s : State) : Option State :=
  match exec (.slotBoundary (pixels 0).1 (pixels 0).2 ⟨.high, [], []⟩) s with
  | .next t => some t
  | _ => none

/-- R80 and Table 12-4 on both sides of code 8: Mezzo's 0.800 V less 12.5 mV for each step. -/
theorem test_overScaled : (nextSlot (marking 7)).map (fun t => (t.metro.overScaled, t.supply.vcore)) = some (false, 24)
    ∧ (nextSlot (marking 8)).map (fun t => (t.metro.overScaled, t.supply.vcore)) = some (true, 23)
    ∧ (nextSlot (marking 15)).map (fun t => (t.metro.overScaled, t.supply.vcore)) = some (true, 16) := by decide

/-- In fermata, and with an entry of the slot that opens the run. -/
theorem witness_overScaled : (slotDone (marking 8) = true ∧ (marking 8).metro.slot < 447 ∧ (marking 8).running = true ∧ (marking 8).fermata = none)
    ∧ (let s := { marking 8 with fermata := some ⟨true, 3, false⟩, metro := { (marking 8).metro with overScaled := true } }
      slotDone s = true ∧ s.fermata.isSome = true ∧ s.metro.slot + 1 ≠ 445) := by decide

/-- Planes at an n by n binning that read their last rows, and their black rows. -/
def binned (n slot : Nat) : State := { atSlot slot with
  planeW := { PlaneState.off with power := .on, reading := true, bin := n }
  planeH := { PlaneState.off with power := .on, reading := true, bin := n } }

theorem witness_rows : (∀ n ∈ [1, 2, 4], (binned n 398).planeW.bin = n ∧ slotDone (binned n 398) = true ∧ (binned n 398).metro.slot + 1 = 399
      ∧ 399 < planeHeight .w ∧ 399 % n = n - 1 ∧ 319 < planeHeight .h ∧ (binned n 397).metro.slot + 1 = 5 * 319 / 4 ∧ 319 % n = n - 1)
    ∧ (∀ j ∈ [0, 3], slotDone (binned 2 (399 + j)) = true ∧ (binned 2 (399 + j)).metro.slot + 1 = 400 + j
      ∧ (binned 2 (403 + j)).metro.slot + 1 = 404 + j ∧ (binned 2 (403 + j)).metro.slot < 443)
    ∧ (nextSlot (binned 2 398)).isSome = true
    ∧ ({ PlaneState.off with coming := some 15 } : PlaneState).coming = some (15 : Fin 16).val ∧ PlaneState.off.coming = none := by decide

/-- Descriptor 0 and launch record 0 have the deadline 448. -/
def late (q0 q1 : List QEntry) : State := { atSlot 447 with
  nvm := image [(8, 112), (9, 2), (88, 128), (96, 160), (202, 192), (203, 1), (234, 192), (235, 1)]
  exec := { up.exec with q0 := q0, q1 := q1 } }

theorem witness_late : (slotDone (late [⟨0, 9⟩] []) = true ∧ (late [⟨0, 9⟩] []).exec.stopped = false)
    ∧ (syncAt (late [⟨0, 9⟩] []) (descOff (late [⟨0, 9⟩] []) 0)).deadline = 448
    ∧ (syncAt (late [] [⟨0, 9⟩]) (recOff (late [] [⟨0, 9⟩]) 0)).deadline = 448
    ∧ 0 ∈ (late [⟨0, 9⟩] []).exec.q0.map (·.index) ∧ 0 ∈ (late [] [⟨0, 9⟩]).exec.q1.map (·.index) := by decide

/-- The last slot of a bar in a fermata that has been released, and in one that has not; Forte is chosen. -/
def holding (released : Bool) : State := { atSlot 447 with
  fermata := some ⟨true, 3, released⟩, cond := { up.cond with next := some .forte, starting := false } }

theorem witness_fermataBar : ∀ b, slotDone (holding b) = true ∧ (holding b).fermata = some ⟨true, 3, b⟩ ∧ (holding b).running = true
    ∧ (holding b).duet.link = .off ∧ ((holding b).det 3).pending = false ∧ (holding b).port.ring.length < 64 := by decide

/-- The start of an exposure lies in this slot at EXP 3584 - 8k, and the slot's ends. -/
theorem witness_exposure : let s := { atSlot 1 with planeW := { PlaneState.off with power := .on, next := some ⟨3576, 0⟩, expStart := some 3600 }, vpix := ⟨true, true, true, true⟩ }
    let c := (3584 - (exposureFor s .w (nextState s)).exp) * s.metro.len / 3584
    s.running = true ∧ s.metro.on = true ∧ (s.plane .w).power = .on ∧ s.vpix.above = true ∧ s.metro.slot * s.metro.len / 448 = c
      ∧ c < (s.metro.slot + 1) * s.metro.len / 448 ∧ up.vpix.above = false := by decide

/-- Slot 0 with a code that has become effective, before its last fixed action. -/
def forcing (d : Due) (c : RzCode) : State := { atSlot 0 with
  metro := { up.metro with slot := 0, due := [d] }, inj := ⟨c, true, true⟩ }

theorem witness_forced : (∀ c : RzCode, (forcing .thermal c).metro.due = [.thermal] ∧ (forcing .thermal c).metro.slot = 0
      ∧ (forcing .thermal c).inj.newly = true ∧ (forcing .thermal c).running = true)
    ∧ ∀ c : RzCode, (forcing .heartbeat c).metro.due = [.heartbeat] ∧ (forcing .heartbeat c).running = true := ⟨fun _ => by decide +revert, fun _ => by decide +revert⟩

/-- Both sides of the release of a shutdown (R100): the 16th sample at 100 degrees C, one at 101, the 15th. -/
theorem test_shutdown_end : sampled 100 { Thermal.zero with shutdown := true, cool100 := 15 } = some (false, false)
    ∧ sampled 101 { Thermal.zero with shutdown := true, cool100 := 15 } = some (false, true)
    ∧ sampled 100 { Thermal.zero with shutdown := true, cool100 := 14 } = some (false, true) := by decide

theorem witness_conductor : (let s := { dueIn .conductor with cond := { up.cond with force := true } }
      Due.conductor ∈ s.metro.due ∧ s.fermata = none ∧ s.cond.force = true)
    ∧ (let s := { following with metro := { following.metro with due := [.conductor] } }
      Due.conductor ∈ s.metro.due ∧ s.fermata = none ∧ s.follower = true)
    ∧ (let s := { dueIn .conductor with fermata := some ⟨true, 3, false⟩ }; Due.conductor ∈ s.metro.due ∧ s.fermata.isSome = true) := by decide

/-- An image whose verdict map in Mezzo names an element for every role, with one fusion rule. -/
def mapped : List Host.Cell :=
  [(8, 112), (9, 2), (136, 64), (137, 1), (140, 12), (144, 112), (145, 1), (148, 208), (152, 64), (153, 2), (390, 1), (392, 32), (393, 184), (435, 16), (436, 5), (437, 2),
    (439, 1), (440, 2), (512, 128), (513, 3), (514, 129), (515, 130), (516, 131), (517, 132),
    (640, 3)]

/-- Slot 444 of a bar with a verdict that is fresh. -/
def judging : State := { dueIn .conductor with
  nvm := image mapped
  metro := { up.metro with slot := 443, due := [.conductor], sched := true }
  cond := { up.cond with taken := true, starting := false, latch := (Vector.replicate 64 0).set 0 3 |>.set 1 6 |>.set 2 1 |>.set 3 2 |>.set 4 1 } }

/-- The same on an up module: the leader, with the partner's verdict of the bar before, and the follower. -/
def judgingUp (role : Bool) : State := { judging with
  boot := { up.boot with straps := ⟨6, role, true, false⟩ }
  duet := { Duet.off with link := .up, partner := [⟨6, true, 2, 0, Vector.replicate 6 9⟩] } }

theorem fresh_judging : Fresh judging := ⟨⟨rfl, rfl, rfl, rfl, fun _ => ⟨rfl, rfl, rfl⟩⟩, rfl⟩

theorem stale_judging : ¬Fresh { judging with cond := { judging.cond with dirty := true } } := fun h => by cases h.2

theorem witness_verdict : (Due.conductor ∈ judging.metro.due ∧ judging.fermata = none ∧ judging.cond.force = false ∧ romFailures [] = [])
    ∧ ((judgingUp false).leader = true ∧ secLen (judgingUp false) 9 ≠ 0 ∧ field (secU (judgingUp false) 9 8 4) 0 5 = 0
      ∧ (judgingUp false).duet.partner.find? (fun p => p.bar = (judgingUp false).aon.bar - 1) = (judgingUp false).duet.partner.head?)
    ∧ ((judgingUp true).follower = true ∧ (judgingUp true).leader = false ∧ judging.leader = false ∧ (judgingUp true).role = true)
    ∧ (named judging (appliedVerdict judging) 3 = 1 ∧ nEff judging = 1 ∧ named judging (appliedVerdict judging) 4 = 2
      ∧ named judging (appliedVerdict judging) 5 = 1) := by decide

/-- PRESENT at its threshold and below it, GEST 6, and the fused element (3 and 1 averaged, R301). -/
def pins (s : State) : Option (Bool × BitVec 3) :=
  match exec (.conductorSlot444 false []) s with
  | .next t => some (t.cond.present, t.cond.gest)
  | _ => none

theorem test_pins : pins judging = some (true, 6) ∧ pins { judging with cond := { judging.cond with latch := judging.cond.latch.set 0 2 } } = some (false, 6)
    ∧ pins (judgingUp true) = some (false, 7) ∧ (appliedVerdict (judgingUp false))[0] = 4 := by decide +kernel

/-- The verdict cue at its target, one below it, and at slot 444. -/
def cued (slot : Nat) : State := { judging with
  metro := { judging.metro with slot := slot, due := [], issue := [⟨slot, 0, 5 + 128⟩] }
  cond := { judging.cond with taken := false }
  exec := { up.exec with cues := up.exec.cues.set 5 1 } }

theorem witness_latch_cue : ((5 : BitVec 7).toNat = vCue (cued 443) ∧ (((cued 443).exec.cues[5]?).getD 0).toNat < vTgt (cued 443)
      ∧ vTgt (cued 443) ≤ min ((((cued 443).exec.cues[5]?).getD 0).toNat + 1) 65535 ∧ (cued 443).metro.slot < 444 ∧ ¬((cued 444).metro.slot < 444)
      ∧ (∀ k, k < 8 → vvAddr (cued 443) / 8 + k ∉ (cued 443).ram.bad)) ∧ (cued 443).metro.issue = ⟨443, 0, BitVec.ofNat 16 ((5 : BitVec 7).toNat + 128 * (1 : BitVec 9).toNat)⟩ :: []
      ∧ (cued 443).metro.due = [] := by decide

theorem witness_records : judging.port.ring = [] ∧ judging.cond.state ≠ .tacet ∧ judging.relays = false ∧ judging.cond.deferred = [] ∧ judging.cond.starting = false
    ∧ judging.duet.relayed.length ≤ 20 ∧ judging.metro.slot < 448 ∧ (∀ i, i < 6 → field (planEntry judging judging.st i) 0 4 ≤ 6)
    ∧ (let s := { judging with cond := { judging.cond with starting := true } }; s.cond.starting = true ∧ s.metro.sched = true ∧ s.fermata = none) := by
  decide

/-- A follower outside a handover bar. -/
theorem witness_followerSends : let s := judgingUp true
    Due.conductor ∈ s.metro.due ∧ s.duet.q3 = [] ∧ s.relays = true ∧ s.cond.deferred = [] ∧ s.cond.state ≠ .tacet ∧ s.cond.starting = false
      ∧ (∀ i, i < 6 → field (planEntry s s.st i) 0 4 ≤ 6) ∧ (eventKeys s [2] ++ plannedKeys s false).length ≤ 6 := by decide

/-- The state chosen for the next bar: the WAKE floor raises Pianissimo, the warning cap lowers Forte (R22). -/
def chosen (st : PState) (wake cap : Bool) : Option (Option PState) :=
  match exec (.conductorSlot444 wake []) { judging with aon := { up.aon with warnCap := cap }, cond := { judging.cond with state := st } } with
  | .next t => some t.cond.next
  | _ => none

theorem test_choice : chosen .pianissimo false false = some none ∧ chosen .pianissimo true false = some (some .mezzo)
    ∧ chosen .forte false false = some none ∧ chosen .forte false true = some (some .mezzo) := by decide +kernel

/-! ### Tacet, supervision and fermata -/

theorem witness_tacetSequence : ((phased (.tacetEntry 4)).cond.phase = .tacetEntry 4 ∧ ∀ e ∈ (phased (.tacetEntry 4)).port.ring, e.st = .enqueued)
    ∧ (phased (.tacetEntry 3)).cond.phase = .tacetEntry 3 ∧ ((phased .tacet).cond.phase = .tacet ∧ (phased .tacet).cond.locked = false)
    ∧ (let s := { phased .tacet with aon := { up.aon with wakeTimer := some 0 } }; s.aon.wakeTimer.isSome = true)
    ∧ (phased .tacetExit).cond.phase = .tacetExit := by decide

/-- The ninth warning of the window, and a fermata that has been entered. -/
def warned : State := { up with aon := { up.aon with warnings := [8] } }
def inFermata (f : Fermata) : State := { up with fermata := some f }

theorem witness_fermata : (warned.running = true ∧ warned.aon.warnCap = false ∧ 8 ≤ warned.aon.warnings.sum ∧ warned.fermata = none)
    ∧ (let s := { up with fermataNext := some true }; s.fermataNext = some true ∧ s.running = true ∧ s.metro.due = [] ∧ s.metro.issue = [])
    ∧ (let s := { atSlot 447 with fermataNext := some false }; s.running = true ∧ s.metro.due = [] ∧ s.metro.issue = [] ∧ s.metro.slot = 447)
    ∧ (let s := inFermata ⟨true, 3, false⟩; s.fermata = some ⟨true, 3, false⟩ ∧ s.running = true ∧ s.cond.next ≠ some .tacet)
    ∧ (let s := { inFermata ⟨true, 3, false⟩ with cond := { up.cond with next := some .tacet } }; s.running = true ∧ s.cond.next = some .tacet) := by
  decide

/-- Slot 444 of a bar whose Conductor has chosen Tacet, with VPIX up and without; step 3 in its last slots. -/
def leaving (above : Bool) : State := { atSlot 444 with vpix := ⟨true, true, above, true⟩, cond := { up.cond with next := some .tacet } }
def noticing (wait : Nat) : State := { phased (.tacetEntry 3) with cond := { up.cond with phase := .tacetEntry 3, wait := wait } }

theorem witness_tacetEntry : (∀ b, slotDone (leaving b) = true ∧ (leaving b).metro.slot = 444 ∧ (leaving b).metro.slot0 = false ∧ (leaving b).running = true
      ∧ (leaving b).fermata = none ∧ (leaving b).cond.next = some .tacet ∧ (leaving b).vpix.above = b)
    ∧ (let s := { leaving true with fermata := some ⟨true, 3, true⟩ }; slotDone s = true ∧ s.running = true ∧ ∀ f, s.fermata = some f → f.released = true)
    ∧ (slotDone (noticing 31) = true ∧ (noticing 30).cond.wait < 31 ∧ 31 ≤ (noticing 31).cond.wait ∧ (noticing 31).metro.slot < 447)
    ∧ (phased (.tacetEntry 2)).cond.phase = .tacetEntry 2
    ∧ (let s := { phased (.tacetEntry 4) with duet := { Duet.off with link := .up } }; s.cond.phase = .tacetEntry 4 ∧ s.duet.link = .up
      ∧ s.duet.q3.length < 16) := by decide

/-- The step of Tacet entry after a slot of step 3: it lasts 2 beats at most (Table 04-6). -/
theorem test_step3 : (nextSlot (noticing 30)).map (·.cond.phase) = some (.tacetEntry 3) ∧ (nextSlot (noticing 31)).map (·.cond.phase) = some (.tacetEntry 2) := by
  decide

theorem witness_supervision : (phased .tacetExit).running = false ∧ up.supply.vrst = true ∧ up.running = true ∧ (warned.aon.warnCap = false ∧ 8 ≤ warned.aon.warnings.sum) := by
  decide

/-- A fermata between slots 444 and 445, with a ramp that runs and without one, to a state with a higher peak. -/
def armed (on : Bool) : State := { inFermata ⟨true, 3, false⟩ with
  nvm := image [(8, 112), (9, 2), (152, 128), (306, 10), (370, 20)]
  cond := { up.cond with next := some .forte }, limiter := { Limiter.idle with on := on, armed := true } }

theorem witness_armed : ∀ b, (armed b).fermata = some ⟨true, 3, false⟩ ∧ (armed b).running = true ∧ (armed b).cond.next = some .forte
    ∧ (armed b).limiter.armed = true ∧ (armed b).limiter.on = b ∧ isUpward (armed b) (armed b).st 3 = true := by decide

/-! ### Clock, gate and event port -/

/-- R113 at the edges of 0.1 %, and a run that has ended. -/
theorem witness_refClk : up.supply.core = true ∧ up.ref.valid = false ∧ goodPeriod 1464 = true ∧ goodPeriod 1466 = true ∧ goodPeriod 1463 = false
    ∧ goodPeriod 1467 = false ∧ (let s := { up with ref := ⟨true, 31, false, 0, 0, 0⟩ }; s.ref.seen = true ∧ s.ref.good + 1 = 32)
    ∧ (let s := { up with ref := ⟨true, 32, true, 31, 45410, 0⟩ }; s.ref.run < 32 ∧ s.ref.valid = true)
    ∧ (let s := { up with ref := ⟨true, 32, true, 32, 46875, 0⟩ }; s.ref.valid = true ∧ s.ref.run = 32) := by decide

def gated (tokens acc : Nat) : State := { up with aon := { up.aon with tokens := tokens, acc := acc } }

theorem witness_refill : up.aon.on = true ∧ up.aon.leak = some 3
    ∧ ((gated 7 0).aon.tokens < 8 ∧ (gated 7 (32959 - leakRate 3)).aon.acc + 1 * leakRate 3 < 32960)
    ∧ ((gated 6 (32960 - leakRate 3)).aon.tokens < 7 ∧ 32960 ≤ (gated 6 (32960 - leakRate 3)).aon.acc + leakRate 3)
    ∧ 8 ≤ (gated 8 0).aon.tokens ∧ State.reset.aon.leak = none := by decide

def entry (st : RingSt) (stamp : Nat) : RingEntry := ⟨Vector.replicate 32 0, st, stamp⟩
def message (type : BitVec 4) (released : Bool) (stamp : Nat) : Msg := ⟨type, Vector.replicate 12 0, released, stamp⟩

/-- One token; an event record older than the message that waits, and one as old as it. -/
theorem witness_release :
    (let s := { gated 1 0 with port := { up.port with release := true, ring := [entry .released 1, entry .enqueued 4] }, duet := { Duet.off with q3 := [message 4 false 5] } }
     s.aon.tokens = 0 + 1 ∧ s.port.ring = [entry .released 1] ++ entry .enqueued 4 :: [] ∧ ∀ m ∈ s.duet.q3, m.released = false → 4 < m.stamp)
    ∧ (let s := { gated 1 0 with port := { up.port with release := true, ring := [entry .enqueued 5] }, duet := { Duet.off with q3 := [message 4 true 1, message 5 false 5] } }
     s.duet.q3 = [message 4 true 1] ++ message 5 false 5 :: [] ∧ (∀ m ∈ [message 4 true 1], m.released = true)
       ∧ ∀ e ∈ s.port.ring, e.st = .enqueued → 5 ≤ e.stamp) := by decide

theorem witness_port :
    (let s := { up with port := ⟨true, [entry .enqueued 1, entry .released 2], 3, none, false⟩ }
     s.port.on = true ∧ s.port.ring = [entry .enqueued 1] ++ entry .released 2 :: [])
    ∧ (let s := { up with port := ⟨true, [entry .enqueued 1], 3, none, false⟩ }; s.port.on = true ∧ ∀ e ∈ s.port.ring, e.st = .enqueued) := by decide

/-- A run of 32 periods whose sum is that of the run, with the trim at mid-range. -/
theorem witness_trim : let s := { up with ref := ⟨true, 32, true, 32, 46875, 0⟩ }
    let e := max (-1000) (min Config.oscillatorError 1000)
    (s.supply.core = true ∧ s.ref.valid = true ∧ s.ref.run = 32) ∧ s.aon.trim + e ≤ 1000 ∧ -1000 ≤ s.aon.trim + e := by
  refine ⟨by decide, ?_⟩
  show (0 : Int) + _ ≤ 1000 ∧ -1000 ≤ (0 : Int) + _
  omega

/-- The oldest entry that is released, at 255, 256 and 257 edges; an idle record at 255 and 256: what the ring and the idle count then hold. -/
def read' (s : State) (n : Nat) : Option (List RingSt × BitVec 8) :=
  match exec (.eventPortTransaction n) s with
  | .next t => some (t.port.ring.map (·.st), t.aon.idle)
  | _ => none

theorem test_edges : (let s := { up with port := ⟨true, [entry .enqueued 1, entry .released 2], 3, none, false⟩ }
      read' s 255 = some ([.enqueued, .partly], 0) ∧ read' s 256 = some ([.enqueued], 0) ∧ read' s 257 = some ([.enqueued, .partly], 0))
    ∧ let s := { up with port := ⟨true, [entry .enqueued 1], 3, none, false⟩ }
      read' s 255 = some ([.enqueued], 0) ∧ read' s 256 = some ([.enqueued], 1) := by decide

theorem witness_noRelease : (gated 1 0).port.release = false ∧ State.reset.port.release = false
    ∧ (let s := { gated 1 0 with port := { up.port with ring := [entry .enqueued 4] } }; ∃ e ∈ s.port.ring, e.st = .enqueued) := by decide

theorem witness_waitsForActions : (dueIn .thermal).metro.due ≠ [] := by decide

/-! ### Entries, dispatch and completion -/

theorem witness_entries : (entryIn 0 (BitVec.ofNat 16 (127 + 128 * 511))).metro.issue = ⟨100, 0, BitVec.ofNat 16 ((127 : BitVec 7).toNat + 128 * (511 : BitVec 9).toNat)⟩ :: []
    ∧ (let s := { entryIn 1 0xFFFF with exec := { up.exec with q0 := List.replicate 31 ⟨0, 0⟩ } }; s.metro.issue = ⟨100, 1, 0xFFFF⟩ :: [] ∧ s.exec.q0.length < 32)
    ∧ (let s := { entryIn 2 0 with exec := { up.exec with q1 := List.replicate 31 ⟨0, 0⟩ } }; s.metro.issue = ⟨100, 2, 0⟩ :: [] ∧ s.exec.q1.length < 32)
    ∧ (let s := { entryIn 1 7 with exec := { up.exec with q0 := List.replicate 32 ⟨0, 0⟩ } }
      s.metro.issue = ⟨100, if false then 2 else 1, 7⟩ :: [] ∧ (if false then s.exec.q1 else s.exec.q0).length = 32)
    ∧ (let s := { entryIn 2 7 with exec := { up.exec with q1 := List.replicate 32 ⟨0, 0⟩ } }
      s.metro.issue = ⟨100, if true then 2 else 1, 7⟩ :: [] ∧ (if true then s.exec.q1 else s.exec.q0).length = 32)
    ∧ (entryIn 4 1).metro.issue = ⟨100, 4, if true then 1 else 0⟩ :: [] ∧ (entryIn 4 0).metro.issue = ⟨100, 4, if false then 1 else 0⟩ :: []
    ∧ (entryIn 3 1).metro.issue = ⟨100, 3, if true then 1 else 0⟩ :: [] ∧ (entryIn 3 0).metro.issue = ⟨100, 3, if false then 1 else 0⟩ :: [] := by decide

/-- A score whose launch record 0 is a kernel of one section and whose record 1 is a crop job, in a state with a Soli clock. -/
def launching (e : QEntry) : State := { up with
  nvm := image [(8, 112), (9, 2), (80, 48), (84, 1), (108, 1), (152, 128), (310, 1)]
  exec := { up.exec with q0 := [e], q1 := [e] } }

theorem witness_dispatch : (launching ⟨0, 100⟩).exec.q0 = ⟨0, 100⟩ :: []
    ∧ (let s := launching ⟨0, 100⟩; s.exec.q1 = ⟨0, 100⟩ :: [] ∧ waitsMet s (recOff s 0) = true ∧ s.exec.soli.length < 8 ∧ stSclk s s.st ≠ 0
      ∧ recKind s 0 = 0 ∧ recSections s 0 ≤ (freeContexts s).length)
    ∧ (let s := launching ⟨1, 100⟩; s.exec.q1 = ⟨1, 100⟩ :: [] ∧ waitsMet s (recOff s 1) = true ∧ s.exec.soli.length < 8 ∧ stSclk s s.st ≠ 0
      ∧ recKind s 1 ≠ 0 ∧ ∀ o ∈ s.exec.soli, o.kind ≠ recKind s 1) := by decide

/-- Heads that stay: a wait on cue 3 at 2 that has 1, eight in flight, no Soli clock, no free context, a crop job that runs. -/
def blocked (cue : BitVec 16) (n : Nat) (cells : List Host.Cell) : State := { launching ⟨0, 100⟩ with
  nvm := image ([(8, 112), (9, 2), (80, 48), (84, 1), (88, 192), (152, 128)] ++ cells)
  exec := { up.exec with
    q0 := [⟨0, 9⟩], q1 := [⟨0, 9⟩], cues := up.exec.cues.set 3 cue, tutti := List.replicate n 0, soli := List.replicate n ⟨0, 0, 0, []⟩ } }

theorem witness_blocked : (let s := blocked 1 7 [(64, 131), (65, 2), (256, 131), (257, 2), (310, 1)]
      s.exec.q0 = ⟨0, 9⟩ :: [] ∧ ¬((syncAt s (descOff s 0)).a.target ≤ ((s.exec.cues[(syncAt s (descOff s 0)).a.cue]?).getD 0).toNat)
        ∧ (syncAt s (descOff s 0)).a.active = true ∧ waitsMet s (recOff s 0) = false ∧ s.exec.tutti.length < 8)
    ∧ (let s := blocked 2 8 [(64, 131), (65, 2), (256, 131), (257, 2), (310, 1)]
      waitsMet s (descOff s 0) = true ∧ ¬(s.exec.tutti.length < 8) ∧ waitsMet s (recOff s 0) = true ∧ 8 ≤ s.exec.soli.length)
    ∧ (let s := blocked 2 0 []; stSclk s s.st = 0 ∧ waitsMet s (recOff s 0) = true)
    ∧ (let s := { blocked 2 0 [(310, 1)] with exec := { up.exec with sections := Vector.replicate 32 (some section0) } }
      stSclk s s.st ≠ 0 ∧ recKind s 0 = 0 ∧ ((List.finRange 32).filter fun c => (s.section c).isNone).length < recSections s 0)
    ∧ (let s := blocked 2 1 [(76, 1), (310, 1)]
      let s' := { s with exec := { s.exec with soli := [⟨0, 0, recKind s 0, []⟩] } }
      recKind s' 0 ≠ 0 ∧ ∃ o ∈ s'.exec.soli, o.kind = recKind s' 0) := by decide

def completing : State := { launching ⟨0, 100⟩ with exec := { up.exec with
  tutti := [0], soli := [⟨0, 0, 0, [0]⟩, ⟨1, 1, 1, []⟩, ⟨2, 1, 2, []⟩, ⟨3, 1, 3, []⟩]
  sections := up.exec.sections.set 0 (some { section0 with ended := true }) } }

theorem witness_dispatchErrors : (launching ⟨0, 100⟩).exec.q0 ≠ [] ∧ (launching ⟨0, 100⟩).exec.q1 ≠ [] ∧ up.exec.q0 = [] ∧ up.exec.q1 = [] := by decide

theorem witness_completes : (completing.exec.tutti = 0 :: [] ∧ completing.exec.abandon = false ∧ (opUpsets completing []).2 = false)
    ∧ (completing.exec.soli[0]? = some ⟨0, 0, 0, [0]⟩ ∧ completing.section 0 = some { section0 with ended := true })
    ∧ (∀ k ∈ [1, 2, 3], (helperJob completing k).isSome = true) ∧ stopped.exec.abandon = true := by decide

/-! ### What the Tutti array and the helpers compute -/

/-- A one-element descriptor of a kind over a k by k window, in Mezzo with bank 0 open; its input lies 4096 bytes behind its output. -/
def open0 : State := { up with nvm := image [(8, 112), (9, 2), (152, 128), (202, 1), (312, 1)] }
def unit (op k : Nat) : Desc := { descAt open0 0 with
  op := op, kh := k, kw := k, src := 2, dst := 2, inBase := 0x10001000, outBase := 0x10000000, iw := k, ih := k, ic := 1, ow := 1, oh := 1, oc := 1,
  oyn := 1, groups := 1, sx := 1, sy := 1, dx := 1, dy := 1, chi := 255, rlim := 15 }

theorem witness_operand : ((-1 : Int) < 0 ∧ ((unit 3 2).ih : Int) ≤ 2 ∧ 1 < (unit 3 2).ih ∧ 1 < (unit 3 2).iw)
    ∧ (let d := { unit 0 1 with winFirst := 3, winN := 2 }; d.winFirst ≤ 4 ∧ 4 < d.winFirst + d.winN ∧ ¬(5 < d.winFirst + d.winN) ∧ d.src ≠ 0)
    ∧ (unit 0 1).cmpIn = false := by decide

/-- A window inside the input, at its last tap, and one outside it; four taps are a power of two. -/
theorem witness_pools : ((unit 3 2).op = 3 ∧ (unit 4 2).op = 4 ∧ (unit 4 2).kh * (unit 4 2).kw = 2 ^ 2)
    ∧ ((0 : Int) ≤ (0 * (unit 3 2).sy + 1 * (unit 3 2).dy : Nat) - ((unit 3 2).pt : Int)
      ∧ (0 * (unit 3 2).sy + 1 * (unit 3 2).dy : Nat) - ((unit 3 2).pt : Int) < (unit 3 2).ih)
    ∧ (let d := { unit 3 1 with pt := 1 }; ¬((0 : Int) ≤ (0 * d.sy + 0 * d.dy : Nat) - (d.pt : Int))) := by decide

/-- A column that is computed, with each kind of output, its bytes in open memory; and one that Reprise skips. -/
theorem witness_column : (∀ d ∈ [unit 0 1, { unit 0 1 with cmp := true }, { unit 0 1 with psumOut := true }, { unit 0 1 with woutN := 1, woutBase := 0x10002000 }],
      skips open0 d 0 0 0 = false ∧ 0 < d.oh ∧ d.woutN ≤ 8 ∧ 32 * 0 < d.ow ∧ 0 < d.groups ∧ d.oy0 + d.oyn ≤ d.oh
        ∧ (d.woutN = 0 ∨ d.outBase < d.woutBase))
    ∧ open0.ram.wf = true ∧ ramOpen open0 0x10000000 = true ∧ ramOpen open0 0x1000FFFF = true ∧ open0.ram.bad = []
    ∧ (let s := { open0 with exec := { up.exec with ctx := 0x50, r := 1 } }; skips s (unit 0 1) 0 0 0 = true)
    ∧ (unit 0 1).ozp < 256 ∧ ∀ q ∈ [(0, 255)], q.2 < 256 := by decide

/-- Slots of a block and a column tile that is handled, and of another tile; a code held for the one slot. -/
theorem witness_slotsWritten : let d := { unit 0 1 with cmp := true, ow := 40, ozp := 7 }
    d.cmp = true ∧ open0.ram.wf = true ∧ d.ozp < 256 ∧ (∀ h ∈ [(0, 0, 255)], h.2.2 < 256) ∧ 0 < d.oh ∧ 0 < (d.oc + 31) / 32 ∧ 39 < d.ow
      ∧ (min (32 * 0 + 31) (d.oc - 1) / (d.oc / d.groups) = 0 ∧ 0 < 32 ∧ ([(0, 0, 255)].filter fun h => h.1 = 0 && h.2.1 / 32 = 0) ≠ [])
      ∧ (∀ j, j < 36 → ramOpen open0 (d.outBase + j) = true ∧ (d.outBase + j) / 8 ∉ open0.ram.bad) ∧ ¬(32 * 1 ≤ 0) := by decide

/-- Two groups of 35 channels, and 40 channels of which the last 8 are wide. -/
def grouped : Desc := { unit 0 1 with oc := 70, groups := 2 }
def wide : Desc := { unit 0 1 with oc := 40, woutFirst := 32, woutN := 8 }

/-- R164: the second group's narrow tile of 3, behind tiles of 32, 3 and 32; the wide tile behind one of 32. -/
theorem test_weights : placeWeights grouped 69 (tilesOf grouped) 0 0 = (3, 0, 3, 2) ∧ placeWeights wide 39 (tilesOf wide) 0 0 = (1, 32, 8, 7) := by decide

theorem witness_weights : 0 < grouped.groups ∧ grouped.oc % grouped.groups = 0 ∧ 69 < grouped.oc ∧ grouped.woutN = 0 ∧ wide.woutN ≠ 0 ∧ wide.groups = 1
    ∧ wide.woutFirst + wide.woutN ≤ wide.oc ∧ 39 < wide.oc ∧ 7 < wide.woutN ∧ wide.wfmt = 0 ∧ ({ wide with wfmt := 3 } : Desc).wfmt ≠ 0 := by decide

theorem witness_sieve : (∀ q ∈ [(255, 0), (0, 1), (255, 2)], q.1 < 256) ∧ ([(255, 0), (0, 1), (255, 2)].map (·.2)).Pairwise (· < ·)
    ∧ orderAnchors [(255, 0), (0, 1), (255, 2)] = [0, 2, 1] ∧ 0 < 1 := by decide +kernel

/-- R216 at its bound: two unit overlaps in areas of 2 and 3 have I = 1 and U = 4, so IOU 16 keeps both and 15 does not. -/
theorem test_overlap : overlapOk 16 ⟨0, 0, 2, 1, 0, 0⟩ ⟨1, 0, 3, 1, 0, 0⟩ = true ∧ overlapOk 15 ⟨0, 0, 2, 1, 0, 0⟩ ⟨1, 0, 3, 1, 0, 0⟩ = false := by decide

/-- R184 at the ends of its shifts, R186 on a tie, the limits of Table 11-5. -/
theorem witness_groups : (∀ v ∈ [(2 : Int) ^ 31, -(2 ^ 31)], v.natAbs ≤ 2 ^ 31) ∧ groupShift [(2 : Int) ^ 31, -(2 ^ 31)] = 25 ∧ groupShift [1] = -6
    ∧ groupShift [-128] = 1 ∧ groupShift [127] = 0 ∧ nearestIndex [0, 2, 4] 1 = 0 ∧ restLimits 3 = none ∧ restLimits 4 = some (48, 2048) := by decide +kernel

/-- A store slot that is valid at this bar, and a query for which no position is near. -/
def stored : State := { open0 with
  nvm := image [(8, 112), (9, 2), (152, 128), (314, 1)]
  ram := ⟨[(0x10400000, 7), (0x10400002, 32)], [0x2080000], []⟩ }

theorem witness_attention : stored.ram.wf = true ∧ ramOpen stored 0x10400000 = true
    ∧ positions stored { attentionAt stored 0 with store := 0x10400000 } = [⟨0, 0, 0⟩] ∧ ([] : List Position).filter (fun p => p.age ≤ 63) = []
    ∧ (attentionAt stored 0).write = false ∧ 0 < (attentionAt stored 0).nq ∧ (attentionAt stored 0).dv = 16 := by decide

/-! ### Rings -/

theorem witness_ring : (let s := { up with port := { up.port with ring := List.replicate 64 (entry .enqueued 0) } }
      s.port.ring = entry .enqueued 0 :: entry .enqueued 0 :: List.replicate 62 (entry .enqueued 0) ∧ 64 ≤ s.port.ring.length)
    ∧ (let s := { up with port := { up.port with ring := List.replicate 63 (entry .enqueued 0) } }; s.port.ring.length < 64) ∧ 0 < 1 :=
  ⟨⟨rfl, by simp⟩, by simp, by decide⟩

/-! ### Touch and haptics -/

/-- The touch controller runs with every receive line; a scan is in progress. -/
def scanning : State := { launching ⟨0, 0⟩ with touch := { Touch.off with on := true, scanning := true } }

theorem witness_touch : (let s := { scanning with touch := { Touch.off with on := true } }
      s.running = true ∧ s.fermata = none ∧ s.touch.on = true ∧ s.touch.scanning = false)
    ∧ ((Instr.scanComplete (List.replicate 8 (List.replicate 16 0)) ⟨List.replicate 2 (List.replicate 16 0), []⟩).wf = true ∧ scanning.running = true
      ∧ scanning.touch.scanning = true ∧ (List.replicate 8 (List.replicate 16 (0 : Int))).length = (if scanning.touch.scanNoise then 16 else 8)
      ∧ scanning.touch.fresh = true)
    ∧ (let s := { scanning with touch := { scanning.touch with scanNoise := true } }
      (List.replicate 16 (List.replicate 16 (0 : Int))).length = (if s.touch.scanNoise then 16 else 8)) := by decide

/-- A haptic driver in a state; effect 1 of the image tracks. -/
def driving (h : Haptic) : State := { atSlot 445 with
  nvm := image [(8, 112), (9, 2), (279, 1)]
  accent := { Accent.off with state := h, pending := some 1 } }

theorem witness_haptics : ((driving (.armed 1)).accent.state = .armed 1 ∧ (driving (.armed 1)).running = true ∧ (driving (.armed 1)).fermata = none
      ∧ (driving (.armed 1)).metro.slot = 445)
    ∧ ((driving .waiting).accent.state = .waiting ∧ (driving .waiting).accent.pending = some 1)
    ∧ (driving (.overdrive 1 3)).accent.state = .overdrive 1 3
    ∧ ((driving (.sustain 1 2)).accent.state = .sustain 1 2 ∧ 2 = effOverLen (driving (.sustain 1 2)) 1 + 2)
    ∧ effTrack (driving (.brake 1)) 1 = true ∧ (driving (.brake 1)).accent.state = .brake 1 := by decide

/-- A scan in each mode that is not the first of its start, with every line enabled. -/
def scanned (noise : Bool) : State := { scanning with
  nvm := image [(8, 112), (9, 2), (152, 128), (324, 10), (328, 255), (329, 255), (330, 255)]
  touch := { scanning.touch with
    fresh := false, scanNoise := noise, scanSense := 3, nodes := Vector.replicate 128 { Node.zero with base := 65536 * 320 } } }

def chips (n : Nat) (m : Int) : List (List Int) := List.replicate n (List.replicate 16 m)

theorem witness_scans : (∀ b, (scanned b).running = true ∧ (scanned b).touch.scanning = true ∧ (scanned b).touch.fresh = false
      ∧ (chips (if b then 16 else 8) 0).length = (if (scanned b).touch.scanNoise then 16 else 8))
    ∧ (Instr.scanComplete (chips 16 0) ⟨chips 2 0, [⟨0x400010, true⟩]⟩).wf = true ∧ rxEnabled (scanned false) 15 = true ∧ txEnabled (scanned false) 7 = true
    ∧ rxEnabled scanning 0 = false := by decide

/-- What a scan makes of node 0: whether it is touched, its baseline and CONTACT. -/
def scannedNode (s : State) (n : Nat) (m : Int) : Option (Bool × Int × Bool) :=
  match exec (.scanComplete (chips n m) ⟨chips 2 0, []⟩) s with
  | .next t => some (t.touch.nodes[0].touched, t.touch.nodes[0].base, t.touch.summary.getLsbD 0)
  | _ => none

/-- R247: at SENSE 3 the threshold is 320 counts. -/
theorem test_touched : scannedNode (scanned false) 8 0 = some (true, 65536 * 320, true) := by decide +kernel

/-- A hold at 2.5 scans of 0.8 s, a double tap, a swipe of 96 and one of 95 (Table 13-2, RATE 10). -/
theorem test_gestures : (({ Gesture.zero with len := 7 } : Gesture).contact 10 0).2 = 5 ∧ (({ Gesture.zero with len := 3, second := true } : Gesture).free 10).2 = 2
    ∧ (({ Gesture.zero with len := 4, last := 96, exc := 96 } : Gesture).free 10).2 = 3
    ∧ (({ Gesture.zero with len := 4, last := 95, exc := 95 } : Gesture).free 10).2 = 0
    ∧ (({ Gesture.zero with tapGap := some 2 } : Gesture).free 10).2 = 1 := by decide

theorem witness_windows : (∀ b ∈ [Bridge.drive true 3 true, .antiphase 3], let s := { driving (.brake 1) with accent := { (driving (.brake 1)).accent with bridge := b } }
      s.accent.state = .brake 1 ∧ s.accent.bridge = b ∧ s.accent.bridge.senses = true)
    ∧ (driving .idle).accent.bridge = .off ∧ (driving (.overdrive 1 3)).accent.cut = false ∧ ((1 : Rat) / 520 ≤ 1 / 400 ∧ (1 : Rat) / 400 ≤ 1 / 280) := by
  refine ⟨by decide, by decide, by decide, by norm_num, by norm_num⟩

/-- R258 and Table 18-5: 16 A = 1600 mV of 3200 is half of 256, and 16 A at VIN is all of it. -/
theorem test_duty : dutyOf 100 3200 = 128 ∧ dutyOf 200 3200 = 256 ∧ dutyOf 201 3200 = 256 ∧ dutyOf 1 3200 = 1 := by decide

/-! ### Duet -/

/-- A frame: two header bytes, twelve of body, and a CRC computed outside the model. -/
def frame (b0 b1 : Byte) (body : List Byte) (crc : Nat) : FrameBytes :=
  Vector.ofFn fun k : Fin 16 => ([b0, b1] ++ body ++ List.replicate (12 - body.length) 0 ++ leBytes 2 crc).getD k.val 0

/-- An up leader, ROLE 0 at epoch 0, and a seeking module. -/
def leading : State := { up with boot := { up.boot with straps := ⟨6, false, true, false⟩ }, duet := { Duet.off with link := .up } }
def seeking : State := { leading with duet := { Duet.off with link := .seeking } }
def flying (tries : Nat) (b0 : Byte) : Flight := ⟨frame b0 0 [] 0, tries, false⟩

theorem witness_sends : Due.heartbeat ∈ (dueIn .heartbeat).metro.due ∧ Due.withdraw ∈ (dueIn .withdraw).metro.due
    ∧ (let s := { leading with duet := { leading.duet with q3 := [message 3 true 0], flight := [flying 0 3, flying 0 0x13, flying 0 0x23] } }
      s.duet.link = .up ∧ Due.heartbeat ∉ s.metro.due ∧ retransmit s.duet.flight = none ∧ s.duet.q3 = message 3 true 0 :: []
        ∧ (message 3 true 0).released = true ∧ s.duet.flight.length < 4)
    ∧ (let s := { leading with duet := { leading.duet with flight := [flying 2 3, flying 0 0x13] } }
      s.duet.flight = flying 2 3 :: [flying 0 0x13] ∧ (flying 2 3).due = false ∧ (flying 2 3).tries < 3
        ∧ ∀ y ∈ [flying 0 0x13], fSeq y.bytes ≠ fSeq (flying 2 3).bytes)
    ∧ 3 ≤ (flying 3 8).tries ∧ fType (flying 3 8).bytes = 8 ∧ fType (flying 3 3).bytes ≠ 8 := by decide

/-- Link frames of the partner, with the other ROLE and READY or not, and one with this module's own ROLE. -/
def beat : FrameBytes := frame 0x02 0x20 [0, 0, 0, 0, 0x08] 0x6C1A
def unready : FrameBytes := frame 0x02 0x20 [] 0x72C0
def stranger : FrameBytes := frame 0x02 0x00 [0, 0, 0, 0, 0x08] 0x4172
def barFrame : FrameBytes := frame 0x01 0x00 [9, 0, 0, 0, 0x08] 0xD40C

theorem witness_link : frameFault beat = none ∧ fType beat = 2 ∧ frameFault unready = none ∧ fType unready = 2 ∧ frameFault stranger = none ∧ fType stranger = 2
    ∧ leading.duet.link = .up
    ∧ frameReady unready = false ∧ frameMatches leading stranger = false ∧ fByte beat 5 / 16 ≠ ({ leading.duet with epoch := 2 } : Duet).epoch.toNat
    ∧ (seeking.duet.link = .seeking ∧ seeking.inject 12 = false ∧ frameMatches seeking beat = true)
    ∧ (frameFault barFrame = none ∧ fType barFrame = 1 ∧ frameMatches held barFrame = true ∧ frameReady barFrame = true ∧ held.duet.link = .up
      ∧ held.leader = false ∧ held.running = true ∧ held.metro.on = true ∧ held.metro.hold = true ∧ stDivx held held.st = fByte barFrame 4 % 16)
    ∧ (following.inject 12 = false ∧ following.metro.hold = false ∧ frameMatches following barFrame = true ∧ following.leader = false) := by
  decide +kernel

/-- One valid message frame of each type. -/
theorem witness_messages : (∀ q ∈ [(3, frame 3 0 [0, 0, 1] 0x4B8C), (3, frame 3 0 [] 0x24C9),
      (4, frame 4 0 [] 0x54CF), (5, frame 5 0 [] 0x2FAE), (6, frame 6 0 [] 0xA20D), (7, frame 7 0 [] 0xD96C), (8, frame 8 0 [] 0x4201), (9, frame 9 0 [1] 0x3A15)], frameFault q.2 = none ∧ fType q.2 = q.1)
    ∧ leading.duet.link ≠ .off ∧ leading.inject 12 = false ∧ leading.duet.memory.contains (fSeq (frame 3 0 [] 0x24C9)) = false
    ∧ fByte (frame 3 0 [0, 0, 1] 0x4B8C) 4 % 2 = 1 ∧ fByte (frame 3 0 [] 0x24C9) 4 % 2 = 0 := by decide +kernel

def halved (s : State) : State := { s with duet := { s.duet with halves := [(15, 1, 0, Vector.replicate 10 0)] } }

theorem witness_relayed : Inv (halved leading) ∧ (halved leading).leader = true ∧ (halved leading).port.ring.length < 64
    ∧ (halved leading).duet.halves.find? (fun h => h.1 + 1 = fSeq (frame 5 0 [] 0x2FAE)) = some (fSeq (frame 5 0 [] 0x2FAE) - 1, 1, 0, Vector.replicate 10 0) ∧ (halved following).leader = false
    ∧ (let s := { leading with duet := { leading.duet with memory := [0] } }; s.duet.memory.contains (fSeq (frame 5 0 [] 0x2FAE)) = true) :=
  ⟨⟨by decide, by decide, by decide, by decide, by decide, by decide, by decide, by decide, by decide, by decide, by decide, by decide,
    by decide, by decide⟩, by decide⟩

/-- A stale presence record of the partner, marked HOLD by it, waits at a leader that is in an injection test with PRIV_N asserted. -/
def relaying : State :=
  { leading with inj := { leading.inj with active := true }, duet := { leading.duet with relayed := [(1, 0x03, [7, 8, 9])] } }

theorem witness_waiting : Inv relaying ∧ relaying.leader = true ∧ following.leader = false ∧ relaying.port.ring.length < 64 ∧ relaying.duet.relayed = [(1, 0x03, [7, 8, 9])] :=
  ⟨⟨by decide, by decide, by decide, by decide, by decide, by decide, by decide, by decide, by decide, by decide, by decide, by decide,
    by decide, by decide⟩, by decide, by decide, by decide⟩

theorem test_relayed : ((pushPartners relaying false false).port.ring.map fun e => (e.data[1], e.data[3], e.data[8])) = [(0x11, 0x37, 7)] := by
  decide +kernel

theorem witness_invalid : (leading.duet.link ≠ .off ∧ leading.inject 12 = false)
    ∧ (let s := { leading with inj := { leading.inj with code := 12 } }; s.duet.link ≠ .off ∧ s.inject 12 = true)
    ∧ (let f : FrameBytes := Vector.replicate 16 0; crc16 (fBytes f 0 14) ≠ fU f 14 2) := by decide +kernel

/-- Step 3 of a reset: of an up module on its bars, with room in Q3 and without; its slots before the last of 2 beats and at it, and its NOTICE. -/
def entering (wait : Nat) : State := { leading with
  cond := { up.cond with phase := .resetEntry, wait := wait }, boot := { leading.boot with entry := 3 } }

theorem witness_step3 : (leading.outOfReset = true ∧ leading.duet.link = .up ∧ leading.metro.on = true ∧ leading.duet.q3.length < 16)
    ∧ (let s := { leading with duet := { leading.duet with q3 := List.replicate 15 (message 3 true 0) ++ [message 9 false 0] } }
      ∃ m ∈ s.duet.q3, m.type = 9)
    ∧ (let s := { leading with metro := Metro.off }; s.outOfReset = true ∧ s.metro.on = false)
    ∧ (slotDone (entering 30) = true ∧ (entering 30).metro.slot < 447 ∧ (entering 30).cond.wait < 31 ∧ 31 ≤ (entering 31).cond.wait)
    ∧ (let s := { entering 4 with duet := { leading.duet with q3 := [message 9 true 0] } }
      s.cond.phase = .resetEntry ∧ s.duet.q3 = message 9 true 0 :: [] ∧ s.duet.link = .up ∧ Due.heartbeat ∉ s.metro.due
        ∧ retransmit s.duet.flight = none ∧ s.duet.flight.length < 4) := by decide

/-- The step lasts 2 beats at most (R90, R303): phase and ENTRY after its slots 31 and 32, and after its NOTICE. -/
theorem test_step3_reset : (nextSlot (entering 30)).map (fun t => (t.cond.phase, t.duet.link)) = some (.resetEntry, .up)
    ∧ (nextSlot (entering 31)).map (fun t => (t.cond.phase, t.boot.entry)) = some (.reset, 3) := by decide

/-- An acknowledgement that is due, a frame that is to go out again, four frames in flight, Tacet entry's NOTICE. -/
theorem witness_transmits : (let s := { leading with duet := { leading.duet with acks := [3], q3 := [message 6 true 0] } }
      s.duet.acks = 3 :: [] ∧ s.duet.q3 = message 6 true 0 :: [] ∧ Due.heartbeat ∉ s.metro.due)
    ∧ (let s := { leading with duet := { leading.duet with flight := [flying 0 3, { flying 1 0x13 with due := true }] } }
      s.duet.acks = [] ∧ s.duet.flight = [flying 0 3] ++ { flying 1 0x13 with due := true } :: [] ∧ (∀ y ∈ [flying 0 3], y.due = false))
    ∧ (let s := { seeking with duet := { seeking.duet with acks := [3] } }; s.duet.link ≠ .off ∧ s.duet.link = .seeking)
    ∧ (let s := { leading with duet := { leading.duet with acks := [3], q3 := [message 3 true 0], flight := List.replicate 4 (flying 0 3) } }; 4 ≤ s.duet.flight.length)
    ∧ (let s := { leading with cond := { up.cond with phase := .tacetEntry 3 }, duet := { leading.duet with q3 := [message 9 true 0] } }
      s.cond.phase = .tacetEntry 3 ∧ s.duet.q3 = message 9 true 0 :: [] ∧ retransmit s.duet.flight = none) := by decide

/-- Silence of 128 slots, 8 beats, between modules of equal divisors, and one slot less (R297). -/
theorem witness_silence : let limit := 8 * 16 * ((divisor leading.duet.pDivx.toNat + stDivisor leading leading.st - 1) / stDivisor leading leading.st)
    limit = 128 ∧ leading.duet.quiet < limit ∧ limit ≤ ({ leading.duet with quiet := 128 } : Duet).quiet := by decide

/-- A BAR of a state that R298 does not follow, and one that does not match its receiver. -/
def barOther : FrameBytes := frame 0x01 0x00 [9, 0, 0x49, 0, 0x08] 0x8318

theorem witness_bars : (frameFault barOther = none ∧ fType barOther = 1 ∧ 4 ≤ fByte barOther 4 / 16 % 8 ∧ fByte barFrame 4 / 16 % 8 ≤ 3)
    ∧ (frameMatches seeking barFrame = false ∧ seeking.metro.hold = false ∧ frameMatches leading barFrame = false)
    ∧ (held.duet.commit = none ∧ held.cond.next = none ∧ fByte barFrame 1 / 16 % 2 = 0 ∧ stDivx held held.st ≠ fByte barOther 4 % 16)
    ∧ following.metro.on = true ∧ following.running = true := by decide +kernel

/-- A heartbeat of a follower that is a bar behind, and with its bar number the leader's, on a slot boundary (r is 0) and half a slot off. -/
theorem witness_heartbeat : (frameMatches leading beat = true ∧ frameReady beat = true ∧ fByte beat 5 / 16 = leading.duet.epoch.toNat ∧ leading.leader = true
      ∧ leading.metro.hold = false ∧ fU beat 2 2 ≠ leading.aon.bar.toNat ∧ signed 24 (fU beat 11 3) = 0)
    ∧ fU beat 2 2 = ({ leading.aon with bar := 0 } : Aon).bar.toNat
    ∧ (∃ k : Int, 64 * |7 * ((24 : Int) - 24 - leading.metro.start) - k * leading.metro.len| ≤ leading.metro.len)
    ∧ ¬∃ k : Int, 64 * |7 * ((114309 : Int) - 24 - leading.metro.start) - k * leading.metro.len| ≤ leading.metro.len := by
  refine ⟨by decide +kernel, by decide +kernel, ⟨0, by decide⟩, ?_⟩
  rintro ⟨k, h⟩
  have h : 64 * |7 * ((114309 : Int) - 24 - 0) - k * 1600000| ≤ 1600000 := h
  rcases abs_cases (7 * ((114309 : Int) - 24 - 0) - k * 1600000) with ⟨e, _⟩ | ⟨e, _⟩ <;> rw [e] at h <;> omega

/-- A WAKE window that still runs, one that has ended, and one of a bar to come; a leader and a module of ROLE 1. -/
theorem witness_effects : (let w : BitVec 16 × BitVec 8 := (5, 2); (leading.aon.bar - w.1).toNat ≤ w.2.toNat)
    ∧ (let w : BitVec 16 × BitVec 8 := (5, 1); ¬((leading.aon.bar - w.1).toNat ≤ w.2.toNat ∨ 0x8000 ≤ (leading.aon.bar - w.1).toNat))
    ∧ (let w : BitVec 16 × BitVec 8 := (8, 1); 0x8000 ≤ (leading.aon.bar - w.1).toNat)
    ∧ leading.role = false ∧ fByte (frame 7 0 [] 0xD96C) 2 = leading.duet.epoch.toNat ∧ following.role = true
    ∧ (∀ h ∈ leading.duet.halves, h.1 + 1 ≠ fSeq (frame 5 0 [] 0x2FAE)) ∧ up.duet.link = .off ∧ seeking.duet.link = .seeking
    ∧ ((6 : BitVec 16) + 1 - leading.aon.bar).toNat < 0x8000 ∧ ¬((5 : BitVec 16) + 1 - leading.aon.bar).toNat < 0x8000 := by decide

/-- Frames with a valid CRC whose TYPE is 0 or 10, or in which a bit of each reserved field is set or a value is invalid. -/
theorem witness_faults : (∀ q ∈ [(0, frame 0 0 [] 0xA96A), (10, frame 10 0 [] 0xB4C3)], frameFault q.2 = some .type ∧ fType q.2 = q.1)
    ∧ (∀ q ∈ [(4, frame 4 0x40 [] 0x0E1F), (1, frame 1 0 [0, 0, 10, 0, 8] 0x5810), (2, frame 2 0 [0, 0, 0, 0, 0x28] 0x3A1A),
        (3, frame 3 0 [0, 0, 32] 0x1DC4), (4, frame 4 0 [16] 0x639F), (5, frame 5 0 [0, 0, 0, 0, 0, 0, 0, 0, 0, 0, 1] 0x1C9F),
        (6, frame 6 0 [0, 0, 0, 1] 0x492E), (7, frame 7 0 [0, 1] 0x0125), (9, frame 9 0 [2] 0x3F8A)], frameFault q.2 = some .reserved ∧ fType q.2 = q.1)
    ∧ frameFault (frame 2 0 [] 0) = some .crc := by decide +kernel

theorem witness_reserved : frameIn (.recA beat) = some beat ∧ ReservedSet (frame 4 0x40 [] 0x0E1F) ∧ ReservedSet (frame 9 0 [2] 0x3F8A) :=
  ⟨rfl, Or.inl (by decide), Or.inr (Or.inr (Or.inr (Or.inr (Or.inl (by decide)))))⟩

/-! ### Flailo -/

def factory : State := { phased .flailo with nvm := ⟨[], [], [], false, []⟩ }
def head (op : Byte) (addr : BitVec 24) (data : List Byte) : FlailoHead :=
  ⟨addr, BitVec.ofNat 16 data.length, data, BitVec.ofNat 16 (crc16 (commandBytes op ⟨addr, BitVec.ofNat 16 data.length, data, 0⟩))⟩
def eight : List Byte := [1, 2, 3, 4, 5, 6, 7, 8]

theorem witness_takes : factory.cond.phase = .flailo ∧ factory.nvm.sealed = false
    ∧ ∀ q ∈ [((1 : Byte), eight), (2, []), (3, []), (4, []), (5, []), (6, []), (7, []), (8, []), (9, []), (0, [])],
      crc16 (commandBytes q.1 (head q.1 0 q.2)) = (head q.1 0 q.2).crc.toNat := by decide +kernel

/-- A LOAD of the last word of score OTP, and a CAL_WRITE of what touch calibration has staged. -/
theorem witness_program : (let h := head 1 0x1FFFF8 eight
      h.data.length = h.len.toNat ∧ 8 ≤ h.len.toNat ∧ h.len.toNat ≤ 4096 ∧ h.len.toNat % 8 = 0 ∧ h.addr.toNat % 8 = 0
        ∧ h.addr.toNat + h.len.toNat ≤ 0x200000 ∧ crc16 (commandBytes 1 h) = h.crc.toNat
        ∧ (∀ w ∈ wordsOf (otpBase + h.addr.toNat) h.data, w.2.length = 8 ∧ otpBase ≤ 8 * w.1)
        ∧ ((wordsOf (otpBase + h.addr.toNat) h.data).map (·.1)).Nodup)
    ∧ cellsWf factory.nvm.otp = true
    ∧ (let ws := stagedWords { factory.flailo.staged with touch := some [0, 0, 0, 0] }
      ws ≠ [] ∧ (∀ w ∈ ws, w.2.length = 8 ∧ otpBase ≤ 8 * w.1) ∧ (ws.map (·.1)).Nodup) := by decide +kernel

theorem witness_answers : (let h := head 6 0 []; h.data = [] ∧ h.len = 0) ∧ ((0 : Byte) = 0 ∨ 8 < (0 : Byte).toNat) ∧ 8 < (9 : Byte).toNat
    ∧ crc16 (commandBytes 7 ⟨0, 0, [], 0⟩) ≠ (0 : BitVec 16).toNat := by decide +kernel

/-- What a plane delivers to a DARK_CAL: every code 0, a response of 1. -/
def darkCodes (p : Plane) : List (List (List Code) × List Code) :=
  List.replicate 16 (List.replicate (planeHeight p) (List.replicate (planeWidth p) 0), List.replicate (4 * planeWidth p) 0)

theorem witness_dark (p : Plane) (led : Bool) :
    (Instr.darkCal (head 3 (match p with | .w => 0 | .h => 1) []) led ⟨List.replicate (4 * planeWidth p) 0, darkCodes p⟩
      (List.replicate (planeWidth p) 1)).wf = true := by
  cases p <;> simp [Instr.wf, darkShape, blackShape, darkCodes, FlailoHead.dataOk, FlailoHead.plane, head]

theorem witness_touchCal : (Instr.touchCal (head 4 0 []) (List.replicate 64 (List.replicate 128 900))).wf = true
    ∧ (head 4 0 []).len = 0 := by
  simp [Instr.wf, touchShape, FlailoHead.dataOk, head]

theorem witness_factory : Inv factory :=
  ⟨by decide, by decide, by decide, by decide, by decide, by decide, by decide, by decide, by decide, by decide, by decide, by decide, by decide,
    by decide⟩

/-- The status of a LOAD of one word at a VPP, into an OTP with some marks, with or without a failing read-back. -/
def loaded (marks : List Nat) (vpp : Nat) (fails : List Nat) : Option Byte :=
  match exec (.load (head 1 0 eight) vpp fails) { factory with nvm := { factory.nvm with marks := marks } } with
  | .next t => t.flailo.response.head?
  | _ => none

/-- VPP from 6.8 to 7.2 V; a marked word that differs comes before VPP; a failing word. -/
theorem test_load : [6799, 6800, 7200, 7201].map (fun v => loaded [] v []) = [some 9, some 0, some 0, some 9] ∧ loaded [0x80000] 6799 [] = some 4
    ∧ loaded [] 7000 [0x80000] = some 0x0B := by decide +kernel

/-- Parts of which the seal's conditions hold and do not, slots that are empty, without a header and valid. -/
def written (cells : List Host.Cell) (marks : List Nat) : State := { factory with nvm := ⟨[], cells, marks, false, []⟩ }

theorem witness_slots : ((written [(0x600000, 7)] []).nvm.read 0x600000).toNat % 8 = 7 ∧ (factory.nvm.read 0x600000).toNat % 8 ≠ 7
    ∧ slotEmpty (selecting factory 6) = true ∧ (slotEmpty (selecting (written [] [0x80000]) 6) = false ∧ headerOk (selecting (written [] [0x80000]) 6) = false)
    ∧ headerOk (selecting verifying 6) = true ∧ slotEmpty (selecting verifying 6) = false := by decide

/-- Addresses and lengths of READ on both sides of each bound: whether the answer is OK. -/
def readable (a : BitVec 24) (n : BitVec 16) : Option Bool :=
  let h : FlailoHead := ⟨a, n, [], 0⟩
  match exec (.read { h with crc := BitVec.ofNat 16 (crc16 (commandBytes 6 h)) }) { factory with nvm := ⟨[], [(0x5FFFFF, 9), (0x601FFF, 8)], [], false, []⟩ } with
  | .next t => t.flailo.response.head?.map (· = 0)
  | _ => none

theorem test_read : readable 0x1FFFFF 1 = some true ∧ readable 0x1FFFFF 2 = some false ∧ readable 0x200000 1 = some false
    ∧ readable 0x801FFF 1 = some true ∧ readable 0x801FFF 2 = some false ∧ readable 0x802000 1 = some false ∧ readable 0xA00000 1 = some false
    ∧ readable 0 0 = some false := by decide +kernel

theorem test_readLength : readable 0 4097 = some false := by decide +kernel

theorem witness_commands : commandIn (.info (head 8 0 [])) = some (8, head 8 0 []) ∧ commandIn (.flailoUnknownOpcode 8 (head 8 0 [])) = none
    ∧ commandIn (.flailoUnknownOpcode 9 (head 9 0 [])) = some (9, head 9 0 []) ∧ up.cond.phase ≠ .flailo
    ∧ (head 2 0 eight).len ≠ 0 ∧ crc16 (commandBytes 2 (head 2 0 eight)) = (head 2 0 eight).crc.toNat := by decide +kernel

/-- Node 0 of a touch calibration spreads by 41 counts, and by 40. -/
theorem witness_spread : (let at' (k n : Nat) : Nat := (([900, 941] : List Nat).getD k 0) + n; at' 0 0 + 40 < at' 1 0)
    ∧ ¬((let at' (k n : Nat) : Nat := (([900, 940] : List Nat).getD k 0) + n; at' 0 0 + 40 < at' 1 0)) := by decide

/-! ### Pads -/

theorem witness_pads : (let s := { up with supply := { up.supply with isolated := true } }; s.supply.isolated = true)
    ∧ (latching.outOfReset = false ∧ latching.cond.phase ≠ .resetEntry ∧ latching.supply.vio = true ∧ latching.supply.isolated = false)
    ∧ (let s := { up with supply := { up.supply with vio := false } }; s.supply.vio = false ∧ s.outOfReset = true)
    ∧ (leading.outOfReset = true ∧ leading.supply.vio = true ∧ leading.supply.vana = true ∧ leading.duet.link ≠ .off ∧ up.duet.link = .off)
    ∧ (let s := { up with port := ⟨true, [entry .released 1], 3, none, false⟩ }; s.port.on = true ∧ ∃ e ∈ s.port.ring, e.st ≠ .enqueued)
    ∧ (let s := { marking 9 with metro := { up.metro with overScaled := true } }; s.metro.overScaled = true ∧ 8 ≤ s.codes.rubato.eff.toNat) := by decide

/-- A response of two bytes in Flailo mode, and a sealed part; the bits behind the falling edges 1 and 16. -/
def answering : State := { factory with flailo := { factory.flailo with response := [0x80, 0x01] } }

theorem witness_prgDat : up.nvm.sealed = true ∧ answering.nvm.sealed = false ∧ answering.supply.vio = true ∧ answering.supply.isolated = false
    ∧ answering.cond.phase = .flailo ∧ written [] [] ≠ up ∧ (let s := { phased .running with nvm := factory.nvm }; s.nvm.sealed = false ∧ s.cond.phase ≠ .flailo)
    ∧ [0, 1, 2, 15, 16].map (fun n => prgDatDrive answering (.response n)) = [true, true, false, false, true].map .driven := by decide

/-- Bit 0 of a record is the most significant of its first byte, bit 255 the least of its last (R263). -/
theorem test_sdo : sdoBit ((Vector.replicate 32 0).set 0 0x80) 0 = true ∧ sdoBit ((Vector.replicate 32 0).set 31 1) 255 = true
    ∧ sdoBit (Vector.replicate 32 0xFF) 256 = false ∧ sdoBit ((Vector.replicate 32 0).set 0 0x80) 7 = false := by decide

/-! ### A whole image: the digest of its body is that of its header -/

set_option maxRecDepth 20000 in
theorem witness_verifies : verifying.cond.phase = .verifying false ∧ imageFault verifying false = none := by decide

end Sys2Proof.Tests
end

section
/-!
SUPPORT. The long steps of the Metronome and the Conductor, cut into stages: each is an equation with the model's own definition.
-/
namespace Sys2Proof.Stages

open Sys2Proof.Machine Sys2Proof.Laws

/-! ### Reads that find errors -/

/-- The state in which reads of the words `ws` find an uncorrectable error. -/
def failingIn (s : State) (ws : List Nat) : State := { s with nvm := { s.nvm with failing := ws } }

theorem withRomErrors_failing (s : State) (ups : List Upset) (act : State → State) (h : romFailures ups ≠ []) :
    withRomErrors s ups act = (romFailures ups).foldl (fun t w => eccTrip t 8 (8 * w))
      (failingIn (act (failingIn s (romFailures ups))) s.nvm.failing) := by
  unfold withRomErrors
  split
  · exact absurd ‹_› h
  · rename_i e
    rw [e]
    rfl

/-! ### Slot 444 -/

/-- The pins of slot 444. -/
def pinned (s : State) : State :=
  if s.fermata.isSome then countStale s else applyPins s (verdictFresh s) (appliedVerdict s) s.touch.summary

/-- Pins and touch of slot 444. -/
def touched444 (s : State) : State := applyTouch (pinned s) s.fermata.isSome

/-- The warning cap starts at slot 444 (R98). -/
def capStarts (s : State) : Bool := (touched444 s).aon.capNext && !s.fermata.isSome

/-- Pins, touch and the start of the warning cap at slot 444, before the choice. -/
def settled (s : State) : State :=
  let t := touched444 s
  if capStarts s then { t with aon := { t.aon with warnCap := true, capNext := false, cleanBars := 0 } } else t

/-- Slot 444 makes a choice, and it is Tacet. -/
def enters (c : State × PState × Bool) : Bool := c.2.2 && c.2.1 = .tacet

/-- The records and frames of slot 444 of `s`, whose choice is `c` (R272). -/
def recorded (s : State) (c : State × PState × Bool) : State :=
  let inFermata := s.fermata.isSome
  let complete := s.metro.sched && !inFermata
  let startEnds := s.cond.starting && complete
  let fresh := verdictFresh s
  let t := if enters c then tacetValues c.1 else c.1
  let t := verdictFrame t fresh s.cond.latch s.touch.summary
  let t := pushFaults t (capStarts s) complete
  let t := pushChanges t (startEnds || (t.cond.starting && enters c)) (if c.2.2 then c.2.1 else t.cond.state)
  let inStart := t.cond.starting && !startEnds
  let t := pushPartners t inStart (!fresh)
  if inStart then t
  else pushPlans t (if s.leader && !s.duet.handover then 2 else 0) (!fresh) (appliedVerdict s) (pinned s).cond.present (pinned s).cond.gest s.touch.summary

/-- What slot 444 of `s` ends with: the acts of a fresh verdict, the choice `c`, the exposures, the marks of the bar. -/
def closed444 (s : State) (c : State × PState × Bool) (t : State) (ups : List Upset) : State :=
  let complete := s.metro.sched && !s.fermata.isSome
  let t := if verdictFresh s then actVerdict t (appliedVerdict s) else t
  let t := if c.2.2 then noteChoice t c.2.1 else t
  let t := setExposures t c.2.1.num ups
  { t with cond := { t.cond with
    past444 := true
    starting := t.cond.starting && !(s.cond.starting && complete) && !enters c
    good := complete && !t.exec.stopped } }

/-- The state in which slot 444 does its work: its action is done, and a cycle of enqueueing begins. -/
def at444 (s : State) : State := newStamp (dropDue s .conductor)

theorem conductorWork_eq (s : State) (wake : Bool) (ups : List Upset) :
    conductorWork s wake ups = (let u := at444 s; let c := choose (settled u) wake; closed444 u c (recorded u c) ups) := rfl

/-- The choice changes the Conductor, and takes note of a NOTICE. -/
theorem choose_changes (s : State) (wake : Bool) :
    ∃ (d : Duet) (c : Conductor), (choose s wake).1 = { s with duet := d, cond := c } ∧ d.q3 = s.duet.q3 := by
  unfold choose
  split
  · show ∃ d c, (decide444 s wake).1 = _ ∧ _
    unfold decide444
    extract_lets
    split
    · exact ⟨_, _, rfl, rfl⟩
    · exact ⟨_, _, rfl, rfl⟩
  · split
    · exact ⟨s.duet, _, rfl, rfl⟩
    · exact ⟨s.duet, s.cond, rfl, rfl⟩

end Sys2Proof.Stages
end

section
/-!
SUPPORT. What the commands leave alone: the gate's count, the series switch, the latched straps and codes, and the entries that wait in the rings;
and the eight commands that are made to change one of them (R35, R39, R40, R58, R68, R274).
-/
namespace Sys2Proof.Guards

open Sys2Proof.Machine Sys2Proof.Laws Sys2Proof.Stages

/-- From `s` to `t` neither the gate's count nor the series switch nor a strap nor a code of reset has changed, and no ring entry has left the state of
waiting. -/
structure Kept (s t : State) : Prop where
  tokens : t.aon.tokens = s.aon.tokens
  acc : t.aon.acc = s.aon.acc
  closed : t.vpix.closed = s.vpix.closed
  straps : t.boot.straps = s.boot.straps
  tempo : t.boot.tempo = s.boot.tempo
  slew : t.boot.slew = s.boot.slew
  ring : ∀ e ∈ t.port.ring, e.st ≠ .enqueued → e ∈ s.port.ring
  q3 : ∀ m ∈ t.duet.q3, m.released = true → m ∈ s.duet.q3

theorem Kept.refl (s : State) : Kept s s := ⟨rfl, rfl, rfl, rfl, rfl, rfl, fun _ m _ => m, fun _ m _ => m⟩

theorem Kept.trans {s t u : State} (a : Kept s t) (b : Kept t u) : Kept s u :=
  ⟨b.tokens.trans a.tokens, b.acc.trans a.acc, b.closed.trans a.closed, b.straps.trans a.straps, b.tempo.trans a.tempo,
    b.slew.trans a.slew, fun e m n => a.ring e (b.ring e m n) n, fun e m n => a.q3 e (b.q3 e m n) n⟩

theorem Kept.of_calm {s t : State} (h : Calm s t) : Kept s t :=
  ⟨h.tokens, h.acc, h.closed, h.straps, h.tempo, h.slew, h.ring, h.q3⟩

/-- An operation that is calm goes on from a state that has kept everything. -/
theorem Kept.calm {s t u : State} (h : Kept s t) (k : Calm t u) : Kept s u := h.trans (.of_calm k)

/-- The same with the operation named first, so that it fixes the state between. -/
theorem Kept.via {s t u : State} (k : Calm t u) (h : Kept s t) : Kept s u := h.calm k

theorem Kept.after {s t u : State} (k : Kept t u) (h : Kept s t) : Kept s u := h.trans k

/-- A state that differs only in fields which are not named here. -/
theorem Kept.of_eq {s t u : State} (h : Kept s t)
    (e : u.aon.tokens = t.aon.tokens ∧ u.aon.acc = t.aon.acc ∧ u.vpix.closed = t.vpix.closed ∧ u.boot.straps = t.boot.straps
      ∧ u.boot.tempo = t.boot.tempo ∧ u.boot.slew = t.boot.slew ∧ u.port.ring = t.port.ring ∧ u.duet.q3 = t.duet.q3) : Kept s u := by
  obtain ⟨tokens, acc, closed, straps, tempo, slew, ring, q3⟩ := e
  exact h.trans ⟨tokens, acc, closed, straps, tempo, slew, fun e m _ => ring ▸ m, fun e m _ => q3 ▸ m⟩

theorem Kept.ite {s a b : State} {c : Prop} [Decidable c] (x : Kept s a) (y : Kept s b) : Kept s (if c then a else b) := by
  split
  · exact x
  · exact y

/-- What a command answers keeps everything that is named here. -/
def Keeps (s : State) (o : Result) : Prop := ∀ t, o = .next t → Kept s t

theorem Keeps.next {s t : State} (h : Kept s t) : Keeps s (.next t) := fun _ e => Host.Outcome.next.inj e ▸ h

theorem Keeps.refused (s : State) (r : Refusal) : Keeps s (.refused r) := by
  intro t e
  injection e

theorem Keeps.ite {s : State} {a b : Result} {c : Prop} [Decidable c] (x : Keeps s a) (y : Keeps s b) : Keeps s (if c then a else b) := by
  split
  · exact x
  · exact y

/-- A command that either does its work or leaves the state alone. -/
theorem Keeps.guarded {s t : State} {c : Prop} [Decidable c] (h : Kept s t) : Keeps s (if c then .next t else .next s) :=
  .ite (.next h) (.next (.refl s))

/-! ### Soli instructions -/

theorem keeps_issue (s : State) (c : Ctx) (i : Instr) {f : Section → State} (h : ∀ x, Kept s (f x)) : Keeps s (issue s c i f) := by
  unfold issue
  cases s.section c with
  | some x => exact .guarded (h x)
  | none => exact .next (.refl s)

theorem kept_setSection (s : State) (c : Ctx) (x : Section) : Kept s (s.setSection c x) := .of_calm (calm_setSection (.refl s) c x)

theorem keeps_writing (s : State) (c : Ctx) (i : Instr) (g : Guard) (d : Reg) (f : Section → Fin 16 → Lane → Word) :
    Keeps s (issue s c i fun x => writeReg s c x g d (f x)) :=
  keeps_issue s c i fun x => .of_calm (calm_writeReg (.refl s) c x g d (f x))

theorem keeps_deciding (s : State) (c : Ctx) (i : Instr) (g : Guard) (d : BitVec 3) (f : Section → Lane → Bool) :
    Keeps s (issue s c i fun x => writePred s c x g d (f x)) :=
  keeps_issue s c i fun x => .of_calm (calm_writePred (.refl s) c x g d (f x))

theorem keeps_load (s : State) (c : Ctx) (i : Instr) (g : Guard) (d a : Reg) (size : Nat) (sign : Bool) (off : BitVec 10) (lc : BitVec 2)
    (ups : List Upset) : Keeps s (loadOp s c i g d a size sign off lc ups) :=
  keeps_issue s c i fun _ => .ite (.refl s) (.of_calm (calm_setSection (calm_readErrors (.refl s) _ _) c _))

theorem keeps_store (s : State) (c : Ctx) (i : Instr) (g : Guard) (d a : Reg) (size : Nat) (off : BitVec 10) (ups : List Upset)
    (h : size ∣ 8) : Keeps s (storeOp s c i g d a size off ups) :=
  keeps_issue s c i fun _ => .of_calm (calm_setSection
    ((calm_readErrors (.refl s) _ _).foldl _ _ fun _ _ _ k => calm_storeLane k _ _ _ h) c _)

theorem keeps_constant (s : State) (c : Ctx) (g : Guard) (d a : Reg) (off : BitVec 10) (lc : BitVec 2) (ups : List Upset) :
    Keeps s (execLdc c g d a off lc ups s) :=
  keeps_issue s c _ fun _ => .ite (.refl s) (.of_calm (calm_romErrors (calm_setSection (.refl s) c _) _ _))

theorem keeps_loadReturn (s : State) (c : Ctx) (k : Nat) (lanes : BitVec 16) : Keeps s (execLoadReturn c k lanes s) := by
  unfold execLoadReturn
  split
  · split
    · exact .next (kept_setSection s c _)
    · exact .next (.refl s)
  · exact .next (.refl s)

theorem keeps_endThreads (s : State) (c : Ctx) (g : Guard) (ups : List Upset) : Keeps s (execEndThreads c g ups s) := by
  unfold execEndThreads
  split
  · exact .guarded (.of_calm (calm_romErrors (calm_setSection (.refl s) c _) _ _))
  · exact .next (.refl s)

theorem keeps_waitlc (s : State) (c : Ctx) (g : Guard) (count : BitVec 6) (lc : BitVec 2) : Keeps s (execWaitlc c g count lc s) :=
  keeps_issue s c _ fun _ => .ite (.refl s) (kept_setSection s c _)

theorem keeps_cwait (s : State) (c : Ctx) (g : Guard) (cue : BitVec 7) (a : Reg) : Keeps s (execCwait c g cue a s) :=
  keeps_issue s c _ fun x => by
    cases x.actList g with
    | nil => exact kept_setSection s c _
    | cons k r => exact .ite (kept_setSection s c _) (.refl s)

theorem kept_postReading {s t : State} (h : Kept s t) (cue inc : Nat) (ups : List Upset) : Kept s (postReading t cue inc ups) :=
  h.calm (calm_withRomErrors (.refl t) ups _ fun _ _ k => calm_post k cue inc ups)

theorem keeps_cpost (s : State) (c : Ctx) (g : Guard) (cue : BitVec 7) (inc : BitVec 9) (ups : List Upset) :
    Keeps s (execCpost c g cue inc ups s) :=
  keeps_issue s c _ fun x =>
    have h : Kept s (s.setSection c x.advance) := kept_setSection s c _
    .ite h (kept_postReading h _ _ ups)

/-! ### Reads of ROM and OTP -/

theorem kept_failingIn {s t : State} (h : Kept s t) (ws : List Nat) : Kept s (failingIn t ws) := h.of_eq ⟨rfl, rfl, rfl, rfl, rfl, rfl, rfl, rfl⟩

theorem kept_withRomErrors {s : State} (ups : List Upset) {act : State → State} (h : ∀ u, Kept u (act u)) :
    Kept s (withRomErrors s ups act) := by
  by_cases e : romFailures ups = []
  · rw [withRomErrors_none s ups act e]
    exact h s
  · rw [withRomErrors_failing s ups act e]
    have k : Kept s (act (failingIn s (romFailures ups))) := (kept_failingIn (.refl s) _).trans (h _)
    exact (kept_failingIn k _).calm ((Calm.refl _).foldl _ _ fun _ _ _ c => calm_eccTrip c _ _)

end Sys2Proof.Guards
end

section
/-!
SUPPORT. Every command keeps what Guards names, but for the eight that are made to change one of it.
-/
namespace Sys2Proof.Guards

open Sys2Proof.Machine Sys2Proof.Laws Sys2Proof.Stages

/-! ### Power, reset and rails -/

theorem kept_readDigest (s : State) (x : DigestRead) : Kept s (readDigest s x) := by
  unfold readDigest
  extract_lets ws _ d _ t
  have h : Kept s t := (Kept.refl s).of_eq ⟨rfl, rfl, rfl, rfl, rfl, rfl, rfl, rfl⟩
  exact .ite h (h.calm (calm_pushFault (calm_newStamp ((Calm.refl t).foldl _ _ fun _ _ _ c => calm_trip c _ _ _)) _ _ _))

theorem keeps_supervisionStart (s : State) (x : DigestRead) : Keeps s (execSupervisionStart x s) :=
  .guarded (.after (kept_readDigest _ x) ((Kept.refl s).of_eq ⟨rfl, rfl, rfl, rfl, rfl, rfl, rfl, rfl⟩))

theorem keeps_vioInvalid (s : State) : Keeps s (execVioInvalid s) := by
  have h : Kept s { s with supply := { s.supply with vio := false } } := (Kept.refl s).of_eq ⟨rfl, rfl, rfl, rfl, rfl, rfl, rfl, rfl⟩
  unfold execVioInvalid
  dsimp only
  split
  · exact .next h
  · exact .next h
  · exact .next h
  · exact .next (h.calm (calm_isolate (.refl _) _ _ _ _))
  · exact .next (h.calm (calm_beginReset (.refl _) _))

theorem keeps_rstNLow (s : State) : Keeps s (execRstNLow s) := by
  have low {t : State} (h : Kept s t) : Kept s { t with supply := { t.supply with rstLow := true } } :=
    h.of_eq ⟨rfl, rfl, rfl, rfl, rfl, rfl, rfl, rfl⟩
  unfold execRstNLow
  dsimp only
  split
  · exact .next (.refl s)
  · exact .next (low (.refl s))
  · exact .next (low (.refl s))
  · exact .next (low (.of_calm (calm_beginReset (.refl s) 1)))

theorem keeps_vinBelowVrst (s : State) : Keeps s (execVinBelowVrst s) :=
  .guarded (.of_eq (.of_calm (calm_isolate (calm_trip (.refl s) _ _ _) _ _ _ _)) ⟨rfl, rfl, rfl, rfl, rfl, rfl, rfl, rfl⟩)

theorem keeps_vcoreCollapse (s : State) : Keeps s (execVcoreCollapse s) :=
  .guarded (.of_calm (calm_isolate (calm_trip (.refl s) _ _ _) _ _ _ _))

theorem keeps_digestVerification (s : State) (wake : Bool) (ups : List Upset) : Keeps s (execDigestVerification wake ups s) := by
  unfold execDigestVerification
  split
  · split
    · exact .next (.of_calm (calm_failVerification (.refl s) _ _))
    · split
      · exact .next (.of_calm (calm_failVerification (.refl s) _ _))
      · exact .next (.of_calm (calm_enterInitial (.refl s) _ _))
  · exact .next (.refl s)

theorem keeps_tacetEventPortDrain (s : State) (elapsed : Bool) : Keeps s (execTacetEventPortDrain elapsed s) := by
  unfold execTacetEventPortDrain
  extract_lets t _ u
  have h : Kept s u := .of_eq (.of_calm (calm_newStamp (calm_discardRing (.refl s)))) ⟨rfl, rfl, rfl, rfl, rfl, rfl, rfl, rfl⟩
  have k : Kept s (pushQ3 u 9 [1]) := h.calm (calm_pushQ3 (.refl u) 9 [1])
  exact .guarded (.ite (k.of_eq ⟨rfl, rfl, rfl, rfl, rfl, rfl, rfl, rfl⟩) (h.calm (calm_endStep3 (.refl u))))

theorem keeps_tacetEntryEnd (s : State) : Keeps s (execTacetEntryEnd s) :=
  .guarded ⟨rfl, rfl, rfl, rfl, rfl, rfl, fun _ m _ => m, fun _ m _ => absurd m List.not_mem_nil⟩

theorem keeps_coreBaseStepComplete (s : State) : Keeps s (execCoreBaseStepComplete s) :=
  .guarded ((Kept.refl s).of_eq ⟨rfl, rfl, rfl, rfl, rfl, rfl, rfl, rfl⟩)

/-! ### Supervision and fermata -/

theorem keeps_vwarnTrip (s : State) : Keeps s (execVwarnTrip s) := by
  have h : Kept s { s with supply := { s.supply with low := s.supply.low || s.aon.on } } := (Kept.refl s).of_eq ⟨rfl, rfl, rfl, rfl, rfl, rfl, rfl, rfl⟩
  refine .ite (.next h) (.next (h.trans (.ite ?_ ?_)))
  · exact .of_calm (calm_callFermata (calm_countWarning (.refl _) _) _)
  · exact .of_calm (calm_countWarning (.refl _) _)

theorem keeps_vcoreUndervoltage (s : State) : Keeps s (execVcoreUndervoltage s) :=
  .next (.ite (.of_calm (calm_callFermata (calm_trip (.refl s) _ _ _) _)) (.refl s))

theorem calm_checkLast {s t : State} (h : Calm s t) : Calm s (checkLast t) := by
  unfold checkLast
  refine .ite (fun _ => h) fun _ => ?_
  split
  · exact h
  · exact calm_tripAt h _ _ _ _ _

theorem keeps_fermataEntry (s : State) : Keeps s (execFermataEntry s) := by
  unfold execFermataEntry
  split
  · exact .guarded (.of_eq (.of_calm (calm_scrub (calm_abandonOps (calm_stopPlanes (calm_checkLast (.refl s))))))
      ⟨rfl, rfl, rfl, rfl, rfl, rfl, rfl, rfl⟩)
  · exact .next (.refl s)

theorem keeps_fermataEnd (s : State) : Keeps s (execFermataEnd s) := by
  have h : Kept s { s with supply := { s.supply with low := false } } := (Kept.refl s).of_eq ⟨rfl, rfl, rfl, rfl, rfl, rfl, rfl, rfl⟩
  unfold execFermataEnd
  dsimp only
  split
  · refine .ite (.ite (.next (h.calm (calm_leaveForTacet (.refl _) _))) (.next ?_)) (.next h)
    split
    · exact .via (calm_takeChoice (.refl _) _) (h.of_eq ⟨rfl, rfl, rfl, rfl, rfl, rfl, rfl, rfl⟩)
    · exact h.of_eq ⟨rfl, rfl, rfl, rfl, rfl, rfl, rfl, rfl⟩
  · exact .next h

/-! ### Planes, limiter and slots -/

theorem keeps_imagerStepDone (s : State) (p : Plane) (e : PowerUpEnd) : Keeps s (execImagerStepDone p e s) :=
  .ite (.refused s _) (.guarded (.of_eq (.of_calm (calm_setPlane (.refl s) p _)) ⟨rfl, rfl, rfl, rfl, rfl, rfl, rfl, rfl⟩))

theorem calm_runActs {s : State} (r : List Machine.Action) (n : Nat) {t : State} (h : Calm s t) : Calm s (runActs r n t) := by
  induction r generalizing t with
  | nil => exact h
  | cons a r ih =>
    refine .ite (fun _ => h) fun _ => ih ?_
    exact .mk' (calm_doAction h a) ⟨rfl, rfl, rfl, rfl, rfl, rfl, rfl, rfl, rfl, rfl, rfl, rfl, rfl, rfl, rfl, rfl, rfl⟩

theorem keeps_limiterTick (s : State) : Keeps s (execLimiterTick s) := by
  have h (l : Limiter) (r : List Machine.Action) (n : Nat) : Kept s (runActs r n { s with limiter := l }) :=
    .via (calm_runActs r n (.refl _)) ((Kept.refl s).of_eq ⟨rfl, rfl, rfl, rfl, rfl, rfl, rfl, rfl⟩)
  refine .ite (.next (.refl s)) (.ite (.next ?_) (.next (h _ _ _)))
  have off (l : Limiter) {t : State} (k : Kept s t) : Kept s { t with limiter := l } := k.of_eq ⟨rfl, rfl, rfl, rfl, rfl, rfl, rfl, rfl⟩
  exact .ite (.via (calm_finishStep5 (.refl _)) (off _ (h _ _ _))) (off _ (h _ _ _))

theorem keeps_ledInterlockOpen (s : State) (current forward : Bool) : Keeps s (execLedInterlockOpen current forward s) :=
  .guarded (.of_eq (.of_calm (calm_vpixOff (calm_trip (.refl s) _ _ _))) ⟨rfl, rfl, rfl, rfl, rfl, rfl, rfl, rfl⟩)

theorem keeps_vpixDischarged (s : State) : Keeps s (execVpixDischarged s) := by
  have h (v : Vpix) (a b : PlaneState) (e : v.closed = s.vpix.closed) : Kept s { s with vpix := v, planeW := a, planeH := b } :=
    (Kept.refl s).of_eq ⟨rfl, rfl, e, rfl, rfl, rfl, rfl, rfl⟩
  exact .guarded (.ite (.via (calm_beginStep5 (.refl _)) (h _ _ _ rfl)) (h _ _ _ rfl))

theorem keeps_planeRestart (s : State) : Keeps s (execPlaneRestart s) := by
  have h (m : Metro) : Kept s { s with metro := m } := (Kept.refl s).of_eq ⟨rfl, rfl, rfl, rfl, rfl, rfl, rfl, rfl⟩
  have set {t : State} (k : Kept s t) (p : Plane) (x : PlaneState) : Kept s (t.setPlane p x) := k.calm (calm_setPlane (.refl t) p x)
  refine .ite (.ite (.next (.via (calm_refusePower (.refl _)) (h _))) (.next ?_)) (.next (.refl s))
  refine .of_eq (.ite (set (.ite (set (h _) .w _) (h _)) .h _) (.ite (set (h _) .w _) (h _))) ⟨rfl, rfl, rfl, rfl, rfl, rfl, rfl, rfl⟩

theorem kept_slotWork (s : State) (w : Vector Code 640) (h : Vector Code 320) (x : BoundaryRead) : Kept s (slotWork s w h x) := by
  have metro (m : Metro) {t : State} (k : Kept s t) : Kept s { t with metro := m } := k.of_eq ⟨rfl, rfl, rfl, rfl, rfl, rfl, rfl, rfl⟩
  have arrived (a b : PlaneState) {t : State} (k : Kept s t) : Kept s { t with planeW := a, planeH := b } :=
    k.of_eq ⟨rfl, rfl, rfl, rfl, rfl, rfl, rfl, rfl⟩
  have sampled {t : State} (k : Kept s t) :
      Kept s (countSlot (samplePriv (readPlane (readPlane (applyStops t) .w w.toList) .h h.toList) x.pad)) :=
    k.calm (calm_countSlot (calm_samplePriv (calm_readPlane (calm_readPlane (calm_applyStops (.refl t)) _ _) _ _) _))
  have marked {t : State} (k : Kept s t) (l : List Entry) : Kept s (markSlot t l) := k.calm (calm_markSlot (.refl t) l)
  unfold slotWork
  extract_lets first slot _ s1 s2 s3 s4 s5 entries s6 _ s7
  have k1 : Kept s s1 := metro _ (.refl s)
  have k2 : Kept s s2 := .ite k1 (k1.calm (calm_checkDeadlines (.refl s1)))
  have k5 : Kept s s5 := sampled (arrived _ _ k2)
  have k7 : Kept s s7 := metro _ (marked k5 _)
  exact .ite k5 (.ite (k7.calm (calm_startAtSlot445 (.refl s7))) k7)

theorem keeps_slotBoundary (s : State) (w : Vector Code 640) (h : Vector Code 320) (x : BoundaryRead) : Keeps s (execSlotBoundary w h x s) :=
  .guarded (kept_withRomErrors _ fun u => kept_slotWork u w h x)

theorem keeps_abandonAndScrub (s : State) : Keeps s (execAbandonAndScrub s) :=
  .guarded (.of_eq (.of_calm (calm_scrub (calm_abandonOps (.refl s)))) ⟨rfl, rfl, rfl, rfl, rfl, rfl, rfl, rfl⟩)

theorem keeps_barStart (s : State) : Keeps s (execBarStart s) := by
  refine .ite (.ite (.next ?_) (.ite (.next ?_) (.next ?_))) (.next (.refl s))
  · exact .of_calm (calm_startBar (.refl s) _ fun _ _ k => calm_beginEntryBar k)
  · exact (Kept.refl s).of_eq ⟨rfl, rfl, rfl, rfl, rfl, rfl, rfl, rfl⟩
  · exact .of_calm (calm_startBar (.refl s) _ fun _ _ k => calm_beginBar k _ _)

theorem keeps_acquisitionHoldTimeout (s : State) : Keeps s (execAcquisitionHoldTimeout s) := by
  unfold execAcquisitionHoldTimeout
  refine .guarded (.of_calm (calm_startBar (.refl s) _ fun u v k => ?_))
  have h (m : Metro) (e : m.slot = v.metro.slot) : Calm u { v with metro := m } :=
    k.of_eq ⟨rfl, rfl, rfl, rfl, rfl, rfl, rfl, rfl, rfl, rfl, rfl, rfl, rfl, rfl, rfl, e, rfl, rfl⟩
  refine calm_beginBar ?_ _ _
  apply h
  rfl

theorem keeps_acquisitionHoldSample (s : State) (pad : PadLevel) (j : Int) : Keeps s (execAcquisitionHoldSample pad j s) :=
  .guarded (.via (calm_sampleThermal (calm_samplePriv (calm_applyStops (.refl _)) _) _)
    ((Kept.refl s).of_eq ⟨rfl, rfl, rfl, rfl, rfl, rfl, rfl, rfl⟩))

theorem keeps_exposureStart (s : State) (p : Plane) : Keeps s (execExposureStart p s) := by
  unfold execExposureStart
  extract_lets x c
  exact .guarded (.of_calm (calm_setPlane (.refl s) p _))

theorem keeps_thermalSample (s : State) (j : Int) : Keeps s (execThermalSample j s) :=
  .guarded (.of_calm (calm_endFixed (calm_sampleThermal (calm_dropDue (.refl s) _) j)))

/-! ### Slot 444 -/

theorem calm_choose {s t : State} (h : Calm s t) (wake : Bool) : Calm s (choose t wake).1 := by
  obtain ⟨d, c, e, q⟩ := choose_changes t wake
  rw [e]
  exact h.of_eq ⟨rfl, rfl, rfl, rfl, rfl, rfl, rfl, rfl, rfl, q, rfl, rfl, rfl, rfl, rfl, rfl, rfl, rfl⟩

theorem calm_settled {s t : State} (h : Calm s t) : Calm s (settled t) := by
  have pins : Calm s (pinned t) := .ite (fun _ => calm_countStale h) fun _ => calm_applyPins h _ _ _
  have k : Calm s (touched444 t) := calm_applyTouch pins _
  exact .ite (fun _ => k.of_eq ⟨rfl, rfl, rfl, rfl, rfl, rfl, rfl, rfl, rfl, rfl, rfl, rfl, rfl, rfl, rfl, rfl, rfl, rfl⟩) fun _ => k

theorem calm_recorded {s : State} (t : State) (c : State × PState × Bool) (h : Calm s c.1) : Calm s (recorded t c) := by
  have values : Calm s (if enters c then tacetValues c.1 else c.1) := .ite (fun _ => calm_tacetValues h) fun _ => h
  have records (fresh capStarts complete ends inStart stale : Bool) (own : Vector Byte 64) (summary : BitVec 32) (chosen : PState) {u : State} (k : Calm s u) :
      Calm s (pushPartners (pushChanges (pushFaults (verdictFrame u fresh own summary) capStarts complete) ends chosen) inStart stale) :=
    calm_pushPartners (calm_pushChanges (calm_pushFaults (calm_verdictFrame k _ _ _) _ _) _ _) _ _
  unfold recorded
  exact .ite (fun _ => records _ _ _ _ _ _ _ _ _ values) fun _ => calm_pushPlans (records _ _ _ _ _ _ _ _ _ values) _ _ _ _ _ _

theorem kept_closed444 {s : State} (t : State) (c : State × PState × Bool) (u : State) (ups : List Upset) (h : Calm s u) :
    Kept s (closed444 t c u ups) := by
  have acts : Calm s (if verdictFresh t then actVerdict u (appliedVerdict t) else u) := .ite (fun _ => calm_actVerdict h _) fun _ => h
  have noted (v : State) (k : Calm s v) : Calm s (if c.2.2 then noteChoice v c.2.1 else v) := .ite (fun _ => calm_noteChoice k _) fun _ => k
  exact .of_eq (.of_calm (calm_setExposures (noted _ acts) _ ups)) ⟨rfl, rfl, rfl, rfl, rfl, rfl, rfl, rfl⟩

theorem keeps_conductorSlot444 (s : State) (wake : Bool) (ups : List Upset) : Keeps s (execConductorSlot444 wake ups s) := by
  have at444 (u : State) : Calm u (at444 u) := calm_newStamp (calm_dropDue (.refl u) _)
  refine .ite (.next (.refl s)) (.next (kept_withRomErrors ups fun u => ?_))
  rw [conductorWork_eq]
  exact kept_closed444 _ _ _ ups (calm_recorded _ _ (calm_choose (calm_settled (at444 u)) wake))

/-! ### Accent, touch and the clock -/

theorem kept_accent (s : State) (a : Accent) : Kept s { s with accent := a } := (Kept.refl s).of_eq ⟨rfl, rfl, rfl, rfl, rfl, rfl, rfl, rfl⟩

theorem keeps_effectStart (s : State) (vin : Nat) : Keeps s (execEffectStart vin s) := by
  unfold execEffectStart
  extract_lets
  split
  · exact .guarded (kept_accent s _)
  · split
    · exact .guarded (kept_accent s _)
    · exact .next (.refl s)
  · exact .next (.refl s)

theorem keeps_halfCycleEnd (s : State) (vin : Nat) (emf : Bool) : Keeps s (execHalfCycleEnd vin emf s) := by
  unfold execHalfCycleEnd
  extract_lets
  split
  · exact .next (kept_accent s _)
  · exact .next (kept_accent s _)
  · exact .next (kept_accent s _)
  · exact .next (.refl s)

theorem keeps_backEmfZeroCrossing (s : State) (gap : Rat) : Keeps s (execBackEmfZeroCrossing gap s) := by
  unfold execBackEmfZeroCrossing
  extract_lets a play
  have h (e : Nat) : Keeps s (play e) := .next (kept_accent s _)
  refine .ite (.next (.refl s)) ?_
  split
  · exact h _
  · exact h _
  · exact h _
  · exact .next (.refl s)

theorem keeps_brakeEnd (s : State) (quiet : Bool) : Keeps s (execBrakeEnd quiet s) := by
  unfold execBrakeEnd
  extract_lets
  split
  · exact .next (kept_accent s _)
  · exact .next (.refl s)

theorem kept_touch {s t : State} (h : Kept s t) (x : Touch) : Kept s { t with touch := x } :=
  h.of_eq ⟨rfl, rfl, rfl, rfl, rfl, rfl, rfl, rfl⟩

theorem keeps_scanStart (s : State) (chg : Bool) : Keeps s (execScanStart chg s) :=
  .guarded (kept_touch (.ite (.of_calm (calm_trip (.refl s) _ _ _)) (.refl s)) _)

theorem keeps_scanComplete (s : State) (chips : List (List Int)) (noise : ListenRead) : Keeps s (execScanComplete chips noise s) :=
  .ite (.refused s _) (.guarded (kept_withRomErrors _ fun u => kept_touch (.refl u) _))

theorem keeps_refClkEdge (s : State) (n : Nat) : Keeps s (execRefClkEdge n s) :=
  .guarded ((Kept.refl s).of_eq ⟨rfl, rfl, rfl, rfl, rfl, rfl, rfl, rfl⟩)

theorem keeps_refClkTimeout (s : State) : Keeps s (execRefClkTimeout s) :=
  .guarded ((Kept.refl s).of_eq ⟨rfl, rfl, rfl, rfl, rfl, rfl, rfl, rfl⟩)

theorem keeps_trimRunEnd (s : State) (n : Nat) : Keeps s (execTrimRunEnd n s) :=
  .guarded ((Kept.refl s).of_eq ⟨rfl, rfl, rfl, rfl, rfl, rfl, rfl, rfl⟩)

/-! ### Schedule entries, dispatch and completion -/

theorem kept_popEntry (s : State) : Kept s (popEntry s) := .of_calm (calm_popEntry (.refl s))

theorem keeps_post (s : State) (cue : BitVec 7) (inc : BitVec 9) (ups : List Upset) : Keeps s (execPost cue inc ups s) :=
  .guarded (kept_postReading (kept_popEntry s) _ _ _)

theorem kept_exec {s t : State} (h : Kept s t) (x : Exec) : Kept s { t with exec := x } :=
  h.of_eq ⟨rfl, rfl, rfl, rfl, rfl, rfl, rfl, rfl⟩

theorem keeps_launchT (s : State) (i : BitVec 16) : Keeps s (execLaunchT i s) :=
  .ite (.ite (.next ((kept_popEntry s).calm (calm_overrun (.refl _) _))) (.next (kept_exec (kept_popEntry s) _))) (.next (.refl s))

theorem keeps_launchS (s : State) (i : BitVec 16) : Keeps s (execLaunchS i s) :=
  .ite (.ite (.next ((kept_popEntry s).calm (calm_overrun (.refl _) _))) (.next (kept_exec (kept_popEntry s) _))) (.next (.refl s))

theorem keeps_sample (s : State) (chg level : Bool) : Keeps s (execSample chg level s) := .guarded (kept_exec (kept_popEntry s) _)

theorem keeps_mark (s : State) (begins : Bool) : Keeps s (execMark begins s) :=
  .guarded ((kept_popEntry s).of_eq ⟨rfl, rfl, rfl, rfl, rfl, rfl, rfl, rfl⟩)

theorem kept_dispatchTutti (s : State) : Kept s (dispatchTutti s) := by
  unfold dispatchTutti
  extract_lets x
  split
  · exact .ite (kept_exec (.refl s) _) (.refl s)
  · exact .refl s

theorem kept_dispatchSoli (s : State) : Kept s (dispatchSoli s) := by
  unfold dispatchSoli
  extract_lets x
  split
  · refine .ite ?_ (.refl s)
    exact .ite (.ite (kept_exec (.refl s) _) (.refl s)) (.ite (.refl s) (kept_exec (.refl s) _))
  · exact .refl s

theorem keeps_queueDispatch (s : State) (q : QueueRead) : Keeps s (execQueueDispatch q s) :=
  .ite (.next (.ite (.refl s) (kept_withRomErrors _ kept_dispatchSoli))) (.next (.ite (.refl s) (kept_withRomErrors _ kept_dispatchTutti)))

theorem keeps_kernelComplete (s : State) (k : Nat) (ups : List Upset) : Keeps s (execKernelComplete k ups s) := by
  unfold execKernelComplete
  split
  · exact .guarded (.of_calm (calm_withRomErrors (.refl s) _ _ fun _ _ h => calm_postSync (calm_retireSoli h _) _ _))
  · exact .next (.refl s)

theorem keeps_tuttiDescriptorComplete (s : State) (ups : List Upset) : Keeps s (execTuttiDescriptorComplete ups s) := by
  have read : Kept s (opUpsets s ups).1 := .of_calm (calm_opUpsets (.refl s) ups)
  have ran (i : Nat) : Kept s (runDescriptor (opUpsets s ups).1 i).s := read.trans (by
    rw [tallied_runDescriptor (opUpsets s ups).1 i]
    exact (Kept.refl _).of_eq ⟨rfl, rfl, rfl, rfl, rfl, rfl, rfl, rfl⟩)
  unfold execTuttiDescriptorComplete
  split
  · refine .ite (.next (.refl s)) (.ite (.next read) (.next (.via (calm_postSync (.refl _) _ _) ?_)))
    exact kept_exec (ran _) _
  · exact .next (.refl s)

/-! ### The Duet link -/

theorem keeps_receive (s : State) (type : Nat) (f : FrameBytes) (act : State → State) (h : ∀ u, Kept u (act u)) :
    Keeps s (receive s type f act) := by
  refine .ite (.next (.refl s)) (.ite (.next (.of_calm (calm_dropFrame (.refl s) _ _))) ?_)
  split
  · exact .next (.of_calm (calm_dropFrame (.refl s) _ _))
  · exact .guarded (.after (h _) ((Kept.refl s).of_eq ⟨rfl, rfl, rfl, rfl, rfl, rfl, rfl, rfl⟩))

theorem keeps_message (s : State) (type : Nat) (f : FrameBytes) (act : State → State) (h : ∀ u v, Calm u v → Calm u (act v)) :
    Keeps s (receive s type f fun s => takeMessage s f act) :=
  keeps_receive s type f _ fun u => .of_calm (calm_takeMessage (.refl u) f act fun v k => h u v k)

theorem calm_duet {s t : State} (h : Calm s t) (d : Duet) (e : d.q3 = t.duet.q3) : Calm s { t with duet := d } :=
  h.of_eq ⟨rfl, rfl, rfl, rfl, rfl, rfl, rfl, rfl, rfl, e, rfl, rfl, rfl, rfl, rfl, rfl, rfl, rfl⟩

theorem keeps_bar (s : State) (f : FrameBytes) (arrival : Int) : Keeps s (execBar f arrival s) :=
  keeps_receive s 1 f _ fun u =>
    have h : Calm u (takeLink u f ⟨false, arrival⟩) := calm_takeLink (.refl u) f _
    .ite (.of_calm (calm_followBar h f arrival)) (.of_calm h)

theorem keeps_heartbeat (s : State) (f : FrameBytes) (time : HeartbeatTime) : Keeps s (execHeartbeat f time s) :=
  keeps_receive s 2 f _ fun u => .of_calm (calm_followHeartbeat (calm_takeLink (.refl u) f time))

theorem keeps_verdict (s : State) (f : FrameBytes) : Keeps s (execVerdict f s) :=
  keeps_message s 3 f _ fun _ _ k => .ite (fun _ => calm_duet k _ rfl) fun _ => k

theorem keeps_recA (s : State) (f : FrameBytes) : Keeps s (execRecA f s) := keeps_message s 4 f _ fun _ _ k => calm_duet k _ rfl

theorem keeps_recB (s : State) (f : FrameBytes) : Keeps s (execRecB f s) :=
  keeps_message s 5 f _ fun u v k => by
    dsimp only
    split
    · refine .ite (fun _ => calm_duet k _ rfl) fun _ => calm_countDrop ?_ 1
      apply calm_duet k
      rfl
    · exact k

theorem keeps_wake (s : State) (f : FrameBytes) : Keeps s (execWake f s) := keeps_message s 6 f _ fun _ _ k => calm_duet k _ rfl

theorem keeps_swapReq (s : State) (f : FrameBytes) : Keeps s (execSwapReq f s) :=
  keeps_message s 7 f _ fun _ _ k => .ite (fun _ => calm_duet k _ rfl) fun _ => k

theorem keeps_swapGo (s : State) (f : FrameBytes) : Keeps s (execSwapGo f s) :=
  keeps_message s 8 f _ fun _ _ k => .ite (fun _ => calm_duet k _ rfl) fun _ => k

theorem keeps_notice (s : State) (f : FrameBytes) : Keeps s (execNotice f s) :=
  keeps_message s 9 f _ fun _ _ k => calm_duet (calm_linkDown k .seeking) _ rfl

theorem keeps_invalidFrame (s : State) (e : FrameError) : Keeps s (execInvalidFrame e s) :=
  .ite (.next (.refl s)) (.ite (.next (.of_calm (calm_dropFrame (.refl s) _ _))) (.next (.of_calm (calm_dropFrame (.refl s) _ _))))

theorem keeps_heartbeatSend (s : State) : Keeps s (execHeartbeatSend s) :=
  .guarded (.of_calm (calm_endFixed (calm_sendLink (calm_dropDue (.refl s) _) 2)))

theorem nextMessage_rest {s : State} {m : Msg} {r : List Msg} (h : nextMessage s = some (m, r)) : r.Sublist s.duet.q3 := by
  unfold nextMessage at h
  split at h
  · rename_i e
    split at h
    · cases h
      rw [e]
      exact List.sublist_cons_self m r
    · cases h
  · cases h

theorem keeps_frameTransmit (s : State) : Keeps s (execFrameTransmit s) := by
  have link : Kept s (sendLink s 2) := .of_calm (calm_sendLink (.refl s) 2)
  refine .ite (.next (.refl s)) (.ite (.next (.ite link (.refl s))) ?_)
  split
  · exact .ite (.next link) (.next (.of_calm (calm_duet (.refl s) _ rfl)))
  · split
    · exact .next (.of_calm (calm_sendMessage (.refl s) _ _ (nextMessage_rest ‹_›)))
    · exact .guarded link

theorem keeps_retransmitTimeout (s : State) (seq : BitVec 4) : Keeps s (execRetransmitTimeout seq s) := by
  have cut (l : List Flight) : Calm s { s with duet := { s.duet with flight := l } } := calm_duet (.refl s) _ rfl
  unfold execRetransmitTimeout
  split
  · refine .ite (.next (.refl s)) (.ite (.next (.of_calm (cut _))) (.next (.ite ?_ ?_)))
    · exact .of_calm (calm_linkDown (calm_countDrop (cut _) 1) .seeking)
    · exact .of_calm (calm_countDrop (cut _) 1)
  · exact .next (.refl s)

theorem keeps_partnerSilenceTimeout (s : State) : Keeps s (execPartnerSilenceTimeout s) :=
  .guarded (.of_calm (calm_linkDown (calm_trip (.refl s) _ _ _) .seeking))

theorem keeps_swapGoWithdraw (s : State) : Keeps s (execSwapGoWithdraw s) := by
  have h : Kept s (dropDue s .withdraw) := .of_calm (calm_dropDue (.refl s) _)
  refine .guarded (h.trans ⟨rfl, rfl, rfl, rfl, rfl, rfl, fun _ m _ => m, fun m k _ => List.mem_of_mem_filter k⟩)

/-! ### Flailo -/

theorem keeps_wellFormed (s : State) (i : Instr) (name : String) {t : State} (h : Kept s t) : Keeps s (wellFormed i name t) :=
  .ite (.next h) (.refused s _)

theorem kept_command (s : State) (op : Byte) (h : FlailoHead) (lenOk : Bool) {act : State → State} (k : Kept s (act s)) :
    Kept s (command s op h lenOk act) :=
  .ite (.refl s) (.ite (.of_calm (calm_respond (.refl s) _ _)) (.ite (.of_calm (calm_respond (.refl s) _ _)) k))

theorem kept_respond {s t : State} (h : Kept s t) (x : Status) (bs : List Byte) : Kept s (respond t x bs) := h.calm (calm_respond (.refl t) x bs)

theorem kept_program (s : State) (ws : Words) (vpp : Nat) (fails : List Nat) : Kept s (program s ws vpp fails) := by
  refine .ite (kept_respond (.refl s) _ _) (.ite (kept_respond (.refl s) _ _) (.via (calm_respond (.refl _) _ _) ?_))
  exact (Kept.refl s).of_eq ⟨rfl, rfl, rfl, rfl, rfl, rfl, rfl, rfl⟩

theorem keeps_flailoLoad (s : State) (h : FlailoHead) (vpp : Nat) (fails : List Nat) : Keeps s (execLoad h vpp fails s) :=
  keeps_wellFormed s _ _ (kept_command s _ h _ (kept_program s _ vpp fails))

theorem keeps_verify (s : State) (h : FlailoHead) : Keeps s (execVerify h s) :=
  keeps_wellFormed s _ _ (kept_command s _ h _ (.ite (kept_respond (.refl s) _ _) (kept_respond (.refl s) _ _)))

theorem kept_staged {s t : State} (h : Kept s t) (x : Staged) (a : Status) (bs : List Byte) :
    Kept s (respond { t with flailo := { t.flailo with staged := x } } a bs) :=
  .via (calm_respond (.refl _) a bs) (h.of_eq ⟨rfl, rfl, rfl, rfl, rfl, rfl, rfl, rfl⟩)

theorem kept_stageDark {s t : State} (h : Kept s t) (p : Plane) (sums : List (List Nat)) (resp : List Nat) : Kept s (stageDark t p sums resp) :=
  .ite (kept_staged h _ _ _) (kept_staged h _ _ _)

theorem keeps_darkCal (s : State) (h : FlailoHead) (led : Bool) (frames : DarkFrames) (resp : List Nat) :
    Keeps s (execDarkCal h led frames resp s) :=
  keeps_wellFormed s _ _ (kept_command s _ h _ (.ite (kept_respond (.refl s) _ _)
    (kept_stageDark (.of_calm (calm_setPlane (.refl s) _ _)) _ _ _)))

theorem keeps_touchCal (s : State) (h : FlailoHead) (scans : List (List Nat)) : Keeps s (execTouchCal h scans s) :=
  keeps_wellFormed s _ _ (kept_command s _ h _ (.ite (kept_respond (.refl s) _ _) (kept_staged (.refl s) _ _ _)))

theorem keeps_calWrite (s : State) (h : FlailoHead) (vpp : Nat) (fails : List Nat) : Keeps s (execCalWrite h vpp fails s) :=
  keeps_wellFormed s _ _ (kept_command s _ h _ (kept_program s _ vpp fails))

theorem keeps_read (s : State) (h : FlailoHead) : Keeps s (execRead h s) := by
  refine keeps_wellFormed s _ _ (kept_command s _ h _ ?_)
  split
  · exact kept_respond (.refl s) _ _
  · exact kept_respond (.refl s) _ _

theorem keeps_seal (s : State) (h : FlailoHead) : Keeps s (execSeal h s) :=
  keeps_wellFormed s _ _ (kept_command s _ h _ (.ite
    (.via (calm_respond (.refl _) _ _) ((Kept.refl s).of_eq ⟨rfl, rfl, rfl, rfl, rfl, rfl, rfl, rfl⟩)) (kept_respond (.refl s) _ _)))

theorem keeps_info (s : State) (h : FlailoHead) : Keeps s (execInfo h s) :=
  keeps_wellFormed s _ _ (kept_command s _ h _ (kept_respond (.refl s) _ _))

theorem keeps_flailoUnknownOpcode (s : State) (op : Byte) (h : FlailoHead) : Keeps s (execFlailoUnknownOpcode op h s) :=
  keeps_wellFormed s _ _ (.ite (.refl s) (kept_command s _ h _ (kept_respond (.refl s) _ _)))

/-! ### Every command -/

/-- The commands that are made to change the gate's count, the series switch, a strap or a code of reset, or the state of a ring entry. -/
inductive Named : Instr → Prop where
  | aonPowerOn : Named .aonPowerOn
  | aonLoss : Named .aonLoss
  | latchMoment (l : Straps) (v : Bool) : Named (.latchMoment l v)
  | privNFall : Named .privNFall
  | privNRise : Named .privNRise
  | tokenRefill (n : Nat) : Named (.tokenRefill n)
  | recordRelease : Named .recordRelease
  | eventPortTransaction (n : Nat) : Named (.eventPortTransaction n)

theorem named_or_keeps (c : Instr) (s : State) : Named c ∨ Keeps s (exec c s) :=
  match c with
  | .aonPowerOn => .inl .aonPowerOn
  | .aonLoss => .inl .aonLoss
  | .supervisionStart x => .inr (keeps_supervisionStart s x)
  | .resetPairReading _ _ => .inr (.guarded ((Kept.refl s).of_eq ⟨rfl, rfl, rfl, rfl, rfl, rfl, rfl, rfl⟩))
  | .selChangeDigestRead x => .inr (.guarded (kept_readDigest s x))
  | .vioValid => .inr (.next ((Kept.refl s).of_eq ⟨rfl, rfl, rfl, rfl, rfl, rfl, rfl, rfl⟩))
  | .vioInvalid => .inr (keeps_vioInvalid s)
  | .rstNLow => .inr (keeps_rstNLow s)
  | .vinBelowVrst => .inr (keeps_vinBelowVrst s)
  | .vcoreCollapse => .inr (keeps_vcoreCollapse s)
  | .latchMoment l v => .inl (.latchMoment l v)
  | .digestVerification wake ups => .inr (keeps_digestVerification s wake ups)
  | .imagerStepDone p e => .inr (keeps_imagerStepDone s p e)
  | .limiterTick => .inr (keeps_limiterTick s)
  | .slotBoundary w h x => .inr (keeps_slotBoundary s w h x)
  | .abandonAndScrub => .inr (keeps_abandonAndScrub s)
  | .barStart => .inr (keeps_barStart s)
  | .exposureStart p => .inr (keeps_exposureStart s p)
  | .thermalSample j => .inr (keeps_thermalSample s j)
  | .rubatoSenseInjectSample _ _ _ => .inr (.guarded (.of_eq (.of_calm (calm_dropDue (.refl s) .resistors)) ⟨rfl, rfl, rfl, rfl, rfl, rfl, rfl, rfl⟩))
  | .leakSample _ => .inr (.guarded (.of_eq (.of_calm (calm_dropDue (.refl s) .leak)) ⟨rfl, rfl, rfl, rfl, rfl, rfl, rfl, rfl⟩))
  | .conductorSlot444 wake ups => .inr (keeps_conductorSlot444 s wake ups)
  | .tacetEventPortDrain elapsed => .inr (keeps_tacetEventPortDrain s elapsed)
  | .tacetEntryEnd => .inr (keeps_tacetEntryEnd s)
  | .wakeHighInTacet => .inr (.guarded (.of_calm (calm_leaveTacet (.refl s) 1)))
  | .aonWakeTimer => .inr (.guarded (.of_calm (calm_leaveTacet (.refl s) 2)))
  | .vwarnTrip => .inr (keeps_vwarnTrip s)
  | .fermataEntry => .inr (keeps_fermataEntry s)
  | .vcoreUndervoltage => .inr (keeps_vcoreUndervoltage s)
  | .fermataEnd => .inr (keeps_fermataEnd s)
  | .ledInterlockMet => .inr (.guarded ((Kept.refl s).of_eq ⟨rfl, rfl, rfl, rfl, rfl, rfl, rfl, rfl⟩))
  | .ledInterlockOpen current forward => .inr (keeps_ledInterlockOpen s current forward)
  | .vpixDischarged => .inr (keeps_vpixDischarged s)
  | .privNFall => .inl .privNFall
  | .planeRestart => .inr (keeps_planeRestart s)
  | .refClkEdge n => .inr (keeps_refClkEdge s n)
  | .refClkTimeout => .inr (keeps_refClkTimeout s)
  | .trimRunEnd n => .inr (keeps_trimRunEnd s n)
  | .tokenRefill n => .inl (.tokenRefill n)
  | .recordRelease => .inl .recordRelease
  | .eventPortTransaction n => .inl (.eventPortTransaction n)
  | .post cue inc ups => .inr (keeps_post s cue inc ups)
  | .launchT i => .inr (keeps_launchT s i)
  | .launchS i => .inr (keeps_launchS s i)
  | .sample chg level => .inr (keeps_sample s chg level)
  | .mark begins => .inr (keeps_mark s begins)
  | .queueDispatch q => .inr (keeps_queueDispatch s q)
  | .tuttiDescriptorComplete ups => .inr (keeps_tuttiDescriptorComplete s ups)
  | .kernelComplete k ups => .inr (keeps_kernelComplete s k ups)
  | .cropJobComplete ups => .inr (.next (.of_calm (calm_completeHelper (.refl s) 1 ups _ fun _ o k => calm_runCrop k o)))
  | .sieveJobComplete ups => .inr (.next (.of_calm (calm_completeHelper (.refl s) 2 ups _ fun _ o k => calm_runSieve k o)))
  | .attentionJobComplete ups => .inr (.next (.of_calm (calm_completeHelper (.refl s) 3 ups _ fun _ o k => calm_runAttention k o)))
  | .endThreads c g ups => .inr (keeps_endThreads s c g ups)
  | .add _ _ _ _ _ => .inr (keeps_writing s _ _ _ _ _)
  | .sub _ _ _ _ _ => .inr (keeps_writing s _ _ _ _ _)
  | .mul _ _ _ _ _ => .inr (keeps_writing s _ _ _ _ _)
  | .mulh _ _ _ _ _ => .inr (keeps_writing s _ _ _ _ _)
  | .mac _ _ _ _ _ => .inr (keeps_writing s _ _ _ _ _)
  | .dot4s _ _ _ _ _ => .inr (keeps_writing s _ _ _ _ _)
  | .dot4us _ _ _ _ _ => .inr (keeps_writing s _ _ _ _ _)
  | .and _ _ _ _ _ => .inr (keeps_writing s _ _ _ _ _)
  | .or _ _ _ _ _ => .inr (keeps_writing s _ _ _ _ _)
  | .xor _ _ _ _ _ => .inr (keeps_writing s _ _ _ _ _)
  | .shl _ _ _ _ _ => .inr (keeps_writing s _ _ _ _ _)
  | .shr _ _ _ _ _ => .inr (keeps_writing s _ _ _ _ _)
  | .sra _ _ _ _ _ => .inr (keeps_writing s _ _ _ _ _)
  | .min _ _ _ _ _ => .inr (keeps_writing s _ _ _ _ _)
  | .max _ _ _ _ _ => .inr (keeps_writing s _ _ _ _ _)
  | .minu _ _ _ _ _ => .inr (keeps_writing s _ _ _ _ _)
  | .maxu _ _ _ _ _ => .inr (keeps_writing s _ _ _ _ _)
  | .abs _ _ _ _ => .inr (keeps_writing s _ _ _ _ _)
  | .lzc _ _ _ _ => .inr (keeps_writing s _ _ _ _ _)
  | .sel _ _ _ _ _ _ => .inr (keeps_writing s _ _ _ _ _)
  | .shfl _ _ _ _ _ => .inr (keeps_writing s _ _ _ _ _)
  | .rshr _ _ _ _ _ => .inr (keeps_writing s _ _ _ _ _)
  | .rsc _ _ _ _ _ => .inr (keeps_writing s _ _ _ _ _)
  | .clamp _ _ _ _ _ => .inr (keeps_writing s _ _ _ _ _)
  | .bra c _ _ => .inr (keeps_issue s c _ fun _ => kept_setSection s c _)
  | .rpush c _ => .inr (keeps_issue s c _ fun _ => kept_setSection s c _)
  | .rsync c => .inr (keeps_issue s c _ fun _ => kept_setSection s c _)
  | .park c _ => .inr (keeps_issue s c _ fun _ => kept_setSection s c _)
  | .ldc c g d a off lc ups => .inr (keeps_constant s c g d a off lc ups)
  | .addi _ _ _ _ _ => .inr (keeps_writing s _ _ _ _ _)
  | .andi _ _ _ _ _ => .inr (keeps_writing s _ _ _ _ _)
  | .ori _ _ _ _ _ => .inr (keeps_writing s _ _ _ _ _)
  | .xori _ _ _ _ _ => .inr (keeps_writing s _ _ _ _ _)
  | .shli _ _ _ _ _ => .inr (keeps_writing s _ _ _ _ _)
  | .shri _ _ _ _ _ => .inr (keeps_writing s _ _ _ _ _)
  | .srai _ _ _ _ _ => .inr (keeps_writing s _ _ _ _ _)
  | .lui _ _ _ _ => .inr (keeps_writing s _ _ _ _ _)
  | .sreg _ _ _ _ => .inr (keeps_writing s _ _ _ _ _)
  | .cmp _ _ _ _ _ _ => .inr (keeps_deciding s _ _ _ _ _)
  | .cmpi _ _ _ _ _ _ => .inr (keeps_deciding s _ _ _ _ _)
  | .plog _ _ _ _ _ _ => .inr (keeps_deciding s _ _ _ _ _)
  | .vote _ _ _ _ _ => .inr (keeps_deciding s _ _ _ _ _)
  | .ldw _ _ _ _ _ _ _ => .inr (keeps_load s _ _ _ _ _ _ _ _ _ _)
  | .ldh _ _ _ _ _ _ _ => .inr (keeps_load s _ _ _ _ _ _ _ _ _ _)
  | .ldhu _ _ _ _ _ _ _ => .inr (keeps_load s _ _ _ _ _ _ _ _ _ _)
  | .ldb _ _ _ _ _ _ _ => .inr (keeps_load s _ _ _ _ _ _ _ _ _ _)
  | .ldbu _ _ _ _ _ _ _ => .inr (keeps_load s _ _ _ _ _ _ _ _ _ _)
  | .loadReturn c k lanes => .inr (keeps_loadReturn s c k lanes)
  | .stw _ _ _ _ _ _ => .inr (keeps_store s _ _ _ _ _ _ _ _ (by decide))
  | .sth _ _ _ _ _ _ => .inr (keeps_store s _ _ _ _ _ _ _ _ (by decide))
  | .stb _ _ _ _ _ _ => .inr (keeps_store s _ _ _ _ _ _ _ _ (by decide))
  | .waitlc c g count lc => .inr (keeps_waitlc s c g count lc)
  | .exp _ _ _ _ => .inr (keeps_writing s _ _ _ _ _)
  | .rcp _ _ _ _ => .inr (keeps_writing s _ _ _ _ _)
  | .rsq _ _ _ _ => .inr (keeps_writing s _ _ _ _ _)
  | .cwait c g cue a => .inr (keeps_cwait s c g cue a)
  | .cpost c g cue inc ups => .inr (keeps_cpost s c g cue inc ups)
  | .scanStart chg => .inr (keeps_scanStart s chg)
  | .scanComplete chips noise => .inr (keeps_scanComplete s chips noise)
  | .effectStart vin => .inr (keeps_effectStart s vin)
  | .halfCycleEnd vin emf => .inr (keeps_halfCycleEnd s vin emf)
  | .backEmfZeroCrossing gap => .inr (keeps_backEmfZeroCrossing s gap)
  | .brakeEnd quiet => .inr (keeps_brakeEnd s quiet)
  | .heartbeatSend => .inr (keeps_heartbeatSend s)
  | .frameTransmit => .inr (keeps_frameTransmit s)
  | .bar f arrival => .inr (keeps_bar s f arrival)
  | .heartbeat f time => .inr (keeps_heartbeat s f time)
  | .verdict f => .inr (keeps_verdict s f)
  | .recA f => .inr (keeps_recA s f)
  | .recB f => .inr (keeps_recB s f)
  | .wake f => .inr (keeps_wake s f)
  | .swapReq f => .inr (keeps_swapReq s f)
  | .swapGo f => .inr (keeps_swapGo s f)
  | .notice f => .inr (keeps_notice s f)
  | .invalidFrame e => .inr (keeps_invalidFrame s e)
  | .retransmitTimeout seq => .inr (keeps_retransmitTimeout s seq)
  | .partnerSilenceTimeout => .inr (keeps_partnerSilenceTimeout s)
  | .swapGoWithdraw => .inr (keeps_swapGoWithdraw s)
  | .acquisitionHoldTimeout => .inr (keeps_acquisitionHoldTimeout s)
  | .load h vpp fails => .inr (keeps_flailoLoad s h vpp fails)
  | .verify h => .inr (keeps_verify s h)
  | .darkCal h led frames resp => .inr (keeps_darkCal s h led frames resp)
  | .touchCal h scans => .inr (keeps_touchCal s h scans)
  | .calWrite h vpp fails => .inr (keeps_calWrite s h vpp fails)
  | .read h => .inr (keeps_read s h)
  | .seal h => .inr (keeps_seal s h)
  | .info h => .inr (keeps_info s h)
  | .privNRise => .inl .privNRise
  | .acquisitionHoldSample pad j => .inr (keeps_acquisitionHoldSample s pad j)
  | .coreBaseStepComplete => .inr (keeps_coreBaseStepComplete s)
  | .flailoUnknownOpcode op h => .inr (keeps_flailoUnknownOpcode s op h)

end Sys2Proof.Guards
end

section
/-!
The settled statements about what the commands leave alone: O6 and O8.
-/
namespace Sys2Proof.Guards

open Sys2Proof.Machine Sys2Proof.Laws

/-! ### The eight named commands -/

/-- Apart from taking back the due edge, a release spends a token for one entry, or does nothing. -/
theorem recordRelease_cases {s t : State} (h : exec .recordRelease s = .next t) :
    (t.aon = s.aon ∨ (t.aon = { s.aon with tokens := s.aon.tokens - 1 } ∧ s.aon.tokens ≠ 0)) ∧ t.vpix = s.vpix ∧ t.boot = s.boot := by
  replace h : execRecordRelease s = .next t := h
  unfold execRecordRelease at h
  extract_lets due _ v w at h
  split at h
  · exact Host.Outcome.next.inj h ▸ ⟨.inl rfl, rfl, rfl⟩
  · rename_i g
    have token : s.aon.tokens ≠ 0 := fun e => g (Bool.or_eq_true_iff.2 (.inr (decide_eq_true e)))
    split at h
    · exact Host.Outcome.next.inj h ▸ ⟨.inr ⟨rfl, token⟩, rfl, rfl⟩
    · split at h
      · exact Host.Outcome.next.inj h ▸ ⟨.inr ⟨rfl, token⟩, rfl, rfl⟩
      · exact Host.Outcome.next.inj h ▸ ⟨.inl rfl, rfl, rfl⟩

/-- AON edges change the gate's count and the flag of a due release. -/
theorem tokenRefill_changes {s t : State} {n : Nat} (h : exec (.tokenRefill n) s = .next t) :
    t.port.ring = s.port.ring ∧ t.duet = s.duet ∧ t.vpix = s.vpix ∧ t.boot = s.boot := by
  replace h : execTokenRefill n s = .next t := h
  unfold execTokenRefill at h
  split at h
  · split at h
    · cases h
      exact ⟨rfl, rfl, rfl, rfl⟩
    · cases h
      exact ⟨rfl, rfl, rfl, rfl⟩
  · cases h
    exact ⟨rfl, rfl, rfl, rfl⟩

/-- What a transaction leaves in the ring had left the state of waiting before. -/
theorem serveRing_released {n : Nat} {l r : List RingEntry} {d : Record} (h : serveRing n l = some (d, r)) :
    ∀ e ∈ r, e.st ≠ .enqueued → ∃ e' ∈ l, e'.st ≠ .enqueued ∧ e'.data = e.data ∧ e'.stamp = e.stamp := by
  induction l generalizing r d with
  | nil => cases h
  | cons a l ih =>
    have within {q : List RingEntry} (k : ∀ e ∈ q, e.st ≠ .enqueued → ∃ e' ∈ l, e'.st ≠ .enqueued ∧ e'.data = e.data ∧ e'.stamp = e.stamp) :
        ∀ e ∈ q, e.st ≠ .enqueued → ∃ e' ∈ a :: l, e'.st ≠ .enqueued ∧ e'.data = e.data ∧ e'.stamp = e.stamp := fun e m g =>
      (k e m g).imp fun _ x => ⟨List.mem_cons_of_mem _ x.1, x.2⟩
    unfold serveRing at h
    split at h
    · rename_i waits
      obtain ⟨⟨d', q⟩, found, e⟩ := Option.map_eq_some_iff.1 h
      cases e
      intro e m g
      rcases List.mem_cons.1 m with rfl | m
      · exact absurd waits g
      · exact within (ih found) e m g
    · rename_i open'
      cases h
      have rest : ∀ e ∈ l, e.st ≠ .enqueued → ∃ e' ∈ l, e'.st ≠ .enqueued ∧ e'.data = e.data ∧ e'.stamp = e.stamp :=
        fun e m g => ⟨e, m, g, rfl, rfl⟩
      split
      · exact within rest
      · intro e m g
        rcases List.mem_cons.1 m with rfl | m
        · exact ⟨a, List.mem_cons_self, open', rfl, rfl⟩
        · exact within rest e m g

/-- A transaction changes the ring and what it serves, and the idle count. -/
theorem eventPortTransaction_changes {s t : State} {n : Nat} (h : exec (.eventPortTransaction n) s = .next t) :
    (∀ e ∈ t.port.ring, e.st ≠ .enqueued → ∃ e' ∈ s.port.ring, e'.st ≠ .enqueued ∧ e'.data = e.data ∧ e'.stamp = e.stamp)
      ∧ t.aon.tokens = s.aon.tokens ∧ t.aon.acc = s.aon.acc ∧ t.duet = s.duet ∧ t.vpix = s.vpix ∧ t.boot = s.boot := by
  replace h : execEventPortTransaction n s = .next t := h
  have same : ∀ e ∈ s.port.ring, e.st ≠ .enqueued → ∃ e' ∈ s.port.ring, e'.st ≠ .enqueued ∧ e'.data = e.data ∧ e'.stamp = e.stamp :=
    fun e m g => ⟨e, m, g, rfl, rfl⟩
  unfold execEventPortTransaction at h
  split at h
  · split at h
    · cases h
      exact ⟨serveRing_released ‹_›, rfl, rfl, rfl, rfl, rfl⟩
    · cases h
      exact ⟨same, rfl, rfl, rfl, rfl, rfl⟩
  · cases h
    exact ⟨same, rfl, rfl, rfl, rfl, rfl⟩

/-- A latch moment keeps the gate's count, the switch and the ring, and empties the link's ring. -/
theorem latchMoment_changes {s t : State} {l : Straps} {v : Bool} (h : exec (.latchMoment l v) s = .next t) :
    t.aon.tokens = s.aon.tokens ∧ t.aon.acc = s.aon.acc ∧ t.vpix = s.vpix ∧ t.port.ring = s.port.ring
      ∧ (t.duet.q3 = [] ∨ t.duet.q3 = s.duet.q3) := by
  replace h : execLatchMoment l v s = .next t := h
  unfold execLatchMoment at h
  split at h
  · cases h
    exact ⟨rfl, rfl, rfl, rfl, .inl rfl⟩
  · cases h
    exact ⟨rfl, rfl, rfl, rfl, .inr rfl⟩

theorem aonPowerOn_changes {s t : State} (h : exec .aonPowerOn s = .next t) :
    t.vpix = s.vpix ∧ t.boot = s.boot ∧ t.port = s.port ∧ t.duet = s.duet := by
  replace h : execAonPowerOn s = .next t := h
  unfold execAonPowerOn at h
  split at h
  · cases h
    exact ⟨rfl, rfl, rfl, rfl⟩
  · cases h
    exact ⟨rfl, rfl, rfl, rfl⟩

theorem aonLoss_changes {s t : State} (h : exec .aonLoss s = .next t) :
    t.vpix.closed = s.vpix.closed ∧ (t = s ∨ (t.port.ring = [] ∧ t.duet.q3 = [])) := by
  replace h : execAonLoss s = .next t := h
  unfold execAonLoss at h
  split at h
  · cases h
    exact ⟨rfl, .inr ⟨rfl, rfl⟩⟩
  · cases h
    exact ⟨rfl, .inl rfl⟩

/-! ### The gate -/

theorem gateChanges : Part.GateChanges := by
  intro c s t h
  rcases named_or_keeps c s with n | k
  · cases n with
    | aonPowerOn => exact .inr (.inl rfl)
    | aonLoss => exact .inr (.inr (.inl rfl))
    | latchMoment l v =>
      obtain ⟨tokens, acc, -⟩ := latchMoment_changes h
      exact .inl ⟨tokens, acc⟩
    | privNFall =>
      cases h
      exact .inl ⟨rfl, rfl⟩
    | privNRise =>
      cases h
      exact .inl ⟨rfl, rfl⟩
    | tokenRefill n => exact .inr (.inr (.inr (.inl ⟨n, rfl⟩)))
    | recordRelease =>
      obtain ⟨same | ⟨spent, token⟩, -⟩ := recordRelease_cases h
      · rw [same]
        exact .inl ⟨rfl, rfl⟩
      · rw [spent]
        exact .inr (.inr (.inr (.inr ⟨rfl, Nat.succ_pred_eq_of_ne_zero token, rfl⟩)))
    | eventPortTransaction n =>
      obtain ⟨-, tokens, acc, -⟩ := eventPortTransaction_changes h
      exact .inl ⟨tokens, acc⟩
  · exact .inl ⟨(k t h).tokens, (k t h).acc⟩

theorem nothingReleasedWithoutToken : Part.NothingReleasedWithoutToken := by
  intro c s t h notRelease
  have same {r : List RingEntry} (e : r = s.port.ring) :
      ∀ e ∈ r, e.st ≠ .enqueued → ∃ e' ∈ s.port.ring, e'.st ≠ .enqueued ∧ e'.data = e.data ∧ e'.stamp = e.stamp :=
    fun x m g => ⟨x, e ▸ m, g, rfl, rfl⟩
  have still {q : List Msg} (e : q = s.duet.q3) : ∀ m ∈ q, m.released = true → m ∈ s.duet.q3 := fun m k _ => e ▸ k
  rcases named_or_keeps c s with n | k
  · cases n with
    | aonPowerOn =>
      obtain ⟨-, -, port, duet⟩ := aonPowerOn_changes h
      exact ⟨same (by rw [port]), still (by rw [duet])⟩
    | aonLoss =>
      obtain ⟨-, rfl | ⟨ring, q3⟩⟩ := aonLoss_changes h
      · exact ⟨same rfl, still rfl⟩
      · rw [ring, q3]
        exact ⟨nofun, nofun⟩
    | latchMoment l v =>
      obtain ⟨-, -, -, ring, q3⟩ := latchMoment_changes h
      refine ⟨same ring, ?_⟩
      rcases q3 with q3 | q3
      · rw [q3]
        exact nofun
      · exact still q3
    | privNFall =>
      cases h
      exact ⟨same rfl, still rfl⟩
    | privNRise =>
      cases h
      exact ⟨same rfl, still rfl⟩
    | tokenRefill n =>
      obtain ⟨ring, duet, -⟩ := tokenRefill_changes h
      exact ⟨same ring, still (by rw [duet])⟩
    | recordRelease => exact absurd rfl notRelease
    | eventPortTransaction n =>
      obtain ⟨ring, -, -, duet, -⟩ := eventPortTransaction_changes h
      exact ⟨ring, still (by rw [duet])⟩
  · exact ⟨fun e m g => ⟨e, (k t h).ring e m g, g, rfl, rfl⟩, (k t h).q3⟩

/-- Settles O6: all commands but eight are calm towards the gate and both rings, and of those eight only the gate's own spend or release. -/
theorem gateGuards : Obligations.GateGuards := ⟨gateChanges, nothingReleasedWithoutToken⟩

/-! ### The pads -/

theorem seriesSwitchByPad : Part.SeriesSwitchByPad := by
  intro c s t h notFall notRise
  rcases named_or_keeps c s with n | k
  · cases n with
    | aonPowerOn => rw [(aonPowerOn_changes h).1]
    | aonLoss => exact (aonLoss_changes h).1
    | latchMoment l v => rw [(latchMoment_changes h).2.2.1]
    | privNFall => exact absurd rfl notFall
    | privNRise => exact absurd rfl notRise
    | tokenRefill n =>
      obtain ⟨-, -, vpix, -⟩ := tokenRefill_changes h
      rw [vpix]
    | recordRelease =>
      obtain ⟨-, vpix, -⟩ := recordRelease_cases h
      rw [vpix]
    | eventPortTransaction n =>
      obtain ⟨-, -, -, -, vpix, -⟩ := eventPortTransaction_changes h
      rw [vpix]
  · exact (k t h).closed

theorem latchedOnce : Part.LatchedOnce := by
  intro c s t h notLatch notLoss
  have same (e : t.boot = s.boot) : t.boot.straps = s.boot.straps ∧ t.boot.tempo = s.boot.tempo ∧ t.boot.slew = s.boot.slew := by
    rw [e]
    exact ⟨rfl, rfl, rfl⟩
  rcases named_or_keeps c s with n | k
  · cases n with
    | aonPowerOn => exact same (aonPowerOn_changes h).2.1
    | aonLoss => exact absurd rfl notLoss
    | latchMoment l v => exact absurd rfl (notLatch l v)
    | privNFall =>
      cases h
      exact same rfl
    | privNRise =>
      cases h
      exact same rfl
    | tokenRefill n =>
      obtain ⟨-, -, -, boot⟩ := tokenRefill_changes h
      exact same boot
    | recordRelease =>
      obtain ⟨-, -, boot⟩ := recordRelease_cases h
      exact same boot
    | eventPortTransaction n =>
      obtain ⟨-, -, -, -, -, boot⟩ := eventPortTransaction_changes h
      exact same boot
  · exact ⟨(k t h).straps, (k t h).tempo, (k t h).slew⟩

/-- Settles O8: of the eight commands that are not calm, only the edges of PRIV_N move the switch, and only LATCH_MOMENT and AON_LOSS set straps and
codes. -/
theorem padsAlone : Obligations.PadsAlone := ⟨seriesSwitchByPad, latchedOnce⟩

end Sys2Proof.Guards
end

section
/-!
The leakage gate (R39, R40, R274): what one AON edge and a run of edges do to the count, which entry a release takes, and O43.
-/
namespace Sys2Proof.Gate

open Sys2Proof.Machine

/-! ### One edge -/

theorem gateEdge_full {leak acc tokens : Nat} (h : 8 ≤ tokens) : gateEdge leak (acc, tokens) = (0, tokens) := if_pos h

theorem gateEdge_adds {leak acc tokens : Nat} (h : tokens < 8) (k : acc + leak < 32960) :
    gateEdge leak (acc, tokens) = (acc + leak, tokens) := by
  unfold gateEdge tokenCap leakFull
  dsimp only
  rw [if_neg (by omega), if_neg (by omega)]

theorem gateEdge_token {leak acc tokens : Nat} (h : tokens < 8) (k : 32960 ≤ acc + leak) :
    gateEdge leak (acc, tokens) = (if tokens + 1 = 8 then 0 else acc + leak - 32960, tokens + 1) := by
  unfold gateEdge tokenCap leakFull
  dsimp only
  rw [if_neg (by omega), if_pos k]

/-- The bounds of the gate's count: the accumulator below a token, at most 8 tokens, and nothing beside the eighth. -/
structure Bounded (g : Nat × Nat) : Prop where
  acc : g.1 < 32960
  tokens : g.2 ≤ 8
  full : g.2 = 8 → g.1 = 0

/-- What a count is worth in units of the accumulator. -/
def worth (g : Nat × Nat) : Nat := 32960 * g.2 + g.1

/-- An edge keeps the bounds, takes no token, and adds the rate, less what the cap holds off. -/
theorem gateEdge_worth {leak : Nat} (rate : leak ≤ 120) {g : Nat × Nat} (b : Bounded g) :
    Bounded (gateEdge leak g) ∧ g.2 ≤ (gateEdge leak g).2 ∧ worth (gateEdge leak g) ≤ worth g + leak
      ∧ ((gateEdge leak g).2 < 8 → worth (gateEdge leak g) = worth g + leak) := by
  obtain ⟨acc, tokens⟩ := g
  obtain ⟨below, most, full⟩ := b
  unfold worth
  dsimp only at below most full
  rcases Nat.lt_or_ge tokens 8 with h | h
  · rcases Nat.lt_or_ge (acc + leak) 32960 with k | k
    · rw [gateEdge_adds h k]
      exact ⟨⟨k, most, fun e => absurd e h.ne⟩, Nat.le_refl _, by omega, fun _ => by omega⟩
    · rw [gateEdge_token h k]
      split
      · exact ⟨⟨Nat.succ_pos 32959, by omega, fun _ => rfl⟩, Nat.le_succ _, by omega, fun _ => by omega⟩
      · exact ⟨⟨by omega, by omega, fun e => by omega⟩, Nat.le_succ _, by omega, fun _ => by omega⟩
  · rw [gateEdge_full h]
    exact ⟨⟨Nat.succ_pos 32959, most, fun _ => rfl⟩, Nat.le_refl _, by omega, fun _ => by omega⟩

/-! ### A run of edges -/

theorem gateEdges_stop {n leak : Nat} {waits : Bool} {g : Nat × Nat} (h : waits = true) (k : (gateEdge leak g).2 ≠ 0) :
    gateEdges (n + 1) leak waits g = (gateEdge leak g, true) := by
  unfold gateEdges
  exact if_pos (by simp [h, k])

theorem gateEdges_goOn {n leak : Nat} {waits : Bool} {g : Nat × Nat} (h : ¬(waits = true ∧ (gateEdge leak g).2 ≠ 0)) :
    gateEdges (n + 1) leak waits g = gateEdges n leak waits (gateEdge leak g) := by
  rw [gateEdges]
  exact if_neg (by simpa using h)

/-- Edges with nothing waiting all take place. -/
theorem gateEdges_free (n leak : Nat) (g : Nat × Nat) : gateEdges (n + 1) leak false g = gateEdges n leak false (gateEdge leak g) :=
  gateEdges_goOn fun h => absurd h.1 (by decide)

/-- A run ends at an edge that releases exactly when an entry waits and a token is there after an edge. -/
theorem gateEdges_release (n leak : Nat) (waits : Bool) (g : Nat × Nat) :
    (gateEdges n leak waits g).2 = true ↔ waits = true ∧ 1 ≤ n ∧ (gateEdges n leak waits g).1.2 ≠ 0 := by
  induction n generalizing g with
  | zero => exact ⟨nofun, fun h => absurd h.2.1 (by decide)⟩
  | succ n ih =>
    by_cases h : waits = true ∧ (gateEdge leak g).2 ≠ 0
    · rw [gateEdges_stop h.1 h.2]
      exact ⟨fun _ => ⟨h.1, by omega, h.2⟩, fun _ => rfl⟩
    · rw [gateEdges_goOn h, ih]
      refine ⟨fun k => ⟨k.1, by omega, k.2.2⟩, fun k => ⟨k.1, ?_, k.2.2⟩⟩
      cases n with
      | zero => exact absurd ⟨k.1, k.2.2⟩ h
      | succ n => omega

/-- A run keeps the bounds, takes no token, and adds the rate for each edge: exactly so while it ends below the cap at no release. -/
theorem gateEdges_worth {leak : Nat} (rate : leak ≤ 120) (n : Nat) (waits : Bool) {g : Nat × Nat} (b : Bounded g) :
    Bounded (gateEdges n leak waits g).1 ∧ g.2 ≤ (gateEdges n leak waits g).1.2
      ∧ worth (gateEdges n leak waits g).1 ≤ worth g + n * leak
      ∧ ((gateEdges n leak waits g).2 = false → (gateEdges n leak waits g).1.2 < 8 →
          worth (gateEdges n leak waits g).1 = worth g + n * leak) := by
  induction n generalizing g with
  | zero => exact ⟨b, Nat.le_refl _, by simp [gateEdges], fun _ _ => by simp [gateEdges]⟩
  | succ n ih =>
    obtain ⟨b1, grows, most, exact1⟩ := gateEdge_worth rate b
    rw [Nat.succ_mul]
    by_cases h : waits = true ∧ (gateEdge leak g).2 ≠ 0
    · rw [gateEdges_stop h.1 h.2]
      exact ⟨b1, grows, by dsimp only; omega, nofun⟩
    · rw [gateEdges_goOn h]
      obtain ⟨bn, grows', most', exact'⟩ := ih b1
      refine ⟨bn, by omega, by omega, fun r below => ?_⟩
      have e := exact' r below
      have e1 := exact1 (by omega)
      omega

/-- A run that releases is a run of edges with nothing waiting, after none of which but the last there is a token. -/
theorem gateEdges_first {n leak : Nat} {waits : Bool} {g : Nat × Nat} (h : (gateEdges n leak waits g).2 = true) :
    ∃ k, 1 ≤ k ∧ k ≤ n ∧ gateEdges k leak false g = ((gateEdges n leak waits g).1, false)
      ∧ ∀ j, 1 ≤ j → j < k → (gateEdges j leak false g).1.2 = 0 := by
  induction n generalizing g with
  | zero => cases h
  | succ n ih =>
    by_cases k : waits = true ∧ (gateEdge leak g).2 ≠ 0
    · rw [gateEdges_stop k.1 k.2]
      exact ⟨1, by decide, by omega, rfl, fun j _ _ => by omega⟩
    · rw [gateEdges_goOn k] at h ⊢
      have waiting : waits = true := ((gateEdges_release _ _ _ _).1 h).1
      have empty : (gateEdge leak g).2 = 0 := Classical.not_not.1 fun e => k ⟨waiting, e⟩
      obtain ⟨i, one, most, run, none⟩ := ih h
      refine ⟨i + 1, by omega, by omega, (gateEdges_free i leak g).trans run, fun j first last => ?_⟩
      obtain ⟨j, rfl⟩ := Nat.exists_eq_succ_of_ne_zero (by omega : j ≠ 0)
      rw [gateEdges_free]
      cases j with
      | zero => exact empty
      | succ j => exact none (j + 1) (by omega) (by omega)

theorem gateCountsExactly : Part.GateCountsExactly := by
  intro n leak waits rel acc tokens acc' tokens' rate below most full run
  obtain ⟨b, grows, upper, exactly⟩ := gateEdges_worth rate n waits (g := (acc, tokens)) ⟨below, most, full⟩
  have release := gateEdges_release n leak waits (acc, tokens)
  have first := @gateEdges_first n leak waits (acc, tokens)
  rw [run] at b grows upper exactly release first
  refine ⟨b.acc, grows, b.tokens, upper, exactly, fun r => ?_, fun r w => ?_⟩
  · obtain ⟨w, -, token⟩ := release.1 r
    exact ⟨w, Nat.one_le_iff_ne_zero.2 token, first r⟩
  · by_contra c
    have : rel = true := release.2 ⟨w, by omega, by dsimp only; omega⟩
    exact absurd (r.symm.trans this) (by decide)

/-! ### TOKEN_REFILL -/

theorem waitingQ2_isSome (s : State) : (waitingQ2 s).isSome = true ↔ ∃ e ∈ s.port.ring, e.st = .enqueued := by
  simp [waitingQ2, List.find?_isSome]

theorem waitingQ3_isSome (s : State) : (waitingQ3 s).isSome = true ↔ ∃ m ∈ s.duet.q3, m.released = false := by
  simp [waitingQ3, List.find?_isSome]

/-- Edges that bring no token only add. -/
theorem gateEdges_below {n leak acc tokens : Nat} (h : tokens < 8) (k : acc + n * leak < 32960) :
    gateEdges n leak false (acc, tokens) = ((acc + n * leak, tokens), false) := by
  induction n generalizing acc with
  | zero => simp [gateEdges]
  | succ n ih =>
    rw [Nat.succ_mul] at k ⊢
    rw [gateEdges_free, gateEdge_adds h (by omega), ih (by omega)]
    simp only [Prod.mk.injEq, and_true]
    omega

theorem gateEdges_one (leak : Nat) (waits : Bool) (g : Nat × Nat) : (gateEdges 1 leak waits g).1 = gateEdge leak g := by
  unfold gateEdges gateEdges
  dsimp only
  split <;> rfl

/-- At the cap the count stays, whether the first edge releases or not. -/
theorem gateEdges_full {n leak acc tokens : Nat} (waits : Bool) (h : 8 ≤ tokens) (k : 1 ≤ n) :
    (gateEdges n leak waits (acc, tokens)).1 = (0, tokens) := by
  obtain ⟨n, rfl⟩ := Nat.exists_eq_add_of_le' k
  clear k
  induction n generalizing acc with
  | zero => rw [gateEdges_one, gateEdge_full h]
  | succ n ih =>
    by_cases c : waits = true ∧ (gateEdge leak (acc, tokens)).2 ≠ 0
    · rw [gateEdges_stop c.1 c.2, gateEdge_full h]
    · rw [gateEdges_goOn c, gateEdge_full h, ih]

theorem execTokenRefill_edges {s : State} {n : Nat} {l : RzCode} (on : s.aon.on = true) (code : s.aon.leak = some l)
    (idle : s.port.release = false) :
    let r := gateEdges n (leakRate l) ((waitingQ2 s).isSome || (waitingQ3 s).isSome) (s.aon.acc, s.aon.tokens)
    exec (.tokenRefill n) s =
      .next { s with aon := { s.aon with acc := r.1.1, tokens := r.1.2 }, port := { s.port with release := r.2 } } := by
  show execTokenRefill n s = _
  unfold execTokenRefill
  rw [code]
  exact if_pos (by rw [on, idle]; rfl)

theorem tokenRefill : Part.TokenRefill := by
  refine ⟨fun s n l on code idle => ?_, fun s n none => ?_, fun s n due => ?_⟩
  · intro waits
    have waiting : ((waitingQ2 s).isSome || (waitingQ3 s).isSome) = true ↔ waits := by
      rw [Bool.or_eq_true_iff, waitingQ2_isSome, waitingQ3_isSome]
    refine ⟨_, _, _, execTokenRefill_edges on code idle, ⟨_, waiting, rfl⟩, fun none below small => ?_, fun one below token => ?_,
      fun full one => ?_, ?_⟩
    · rw [Bool.eq_false_iff.2 fun h => none (waiting.1 h), gateEdges_below below small]
      exact ⟨rfl, rfl⟩
    · rw [one, gateEdges_one, gateEdge_token (by omega) token, if_neg (by omega)]
      exact ⟨rfl, rfl⟩
    · rw [gateEdges_full _ full one]
      exact ⟨rfl, rfl⟩
    · rw [gateEdges_release, waiting]
  · show execTokenRefill n s = _
    unfold execTokenRefill
    rw [none]
  · show execTokenRefill n s = _
    unfold execTokenRefill
    cases s.aon.leak with
    | none => rfl
    | some l => exact if_neg (by simp [due])

/-! ### RECORD_RELEASE -/

theorem find_enqueued {r u : List RingEntry} {e : RingEntry} (h : e.st = .enqueued) (k : ∀ x ∈ r, x.st ≠ .enqueued) :
    (r ++ e :: u).find? (fun x => x.st = .enqueued) = some e := by
  rw [List.find?_append, List.find?_eq_none.2 (by simpa using k), Option.none_or, List.find?_cons_of_pos (by simpa using h)]

theorem find_unreleased {r u : List Msg} {m : Msg} (h : m.released = false) (k : ∀ x ∈ r, x.released = true) :
    (r ++ m :: u).find? (fun x => !x.released) = some m := by
  rw [List.find?_append, List.find?_eq_none.2 (by simpa using k), Option.none_or, List.find?_cons_of_pos (by simpa using h)]

theorem releaseQ2_append {r u : List RingEntry} {e : RingEntry} (h : e.st = .enqueued) (k : ∀ x ∈ r, x.st ≠ .enqueued) :
    releaseQ2 (r ++ e :: u) = r ++ { e with st := .released } :: u := by
  induction r with
  | nil => exact if_pos h
  | cons a r ih =>
    rw [List.forall_mem_cons] at k
    exact (if_neg k.1).trans (by rw [List.append_eq, ih k.2, List.cons_append])

theorem releaseQ3_append {r u : List Msg} {m : Msg} (h : m.released = false) (k : ∀ x ∈ r, x.released = true) :
    releaseQ3 (r ++ m :: u) = r ++ { m with released := true } :: u := by
  induction r with
  | nil => exact if_pos (by rw [h]; rfl)
  | cons a r ih =>
    rw [List.forall_mem_cons] at k
    exact (if_neg (by rw [k.1]; decide)).trans (by rw [List.append_eq, ih k.2, List.cons_append])

/-- The link's oldest waiting entry is one of its entries that wait. -/
theorem waitingQ3_mem {s : State} {b : Nat} (h : waitingQ3 s = some b) : ∃ m ∈ s.duet.q3, m.released = false ∧ m.stamp = b := by
  obtain ⟨m, found, rfl⟩ := Option.map_eq_some_iff.1 h
  exact ⟨m, List.mem_of_find?_eq_some found, by simpa using List.find?_some found, rfl⟩

theorem waitingQ2_mem {s : State} {a : Nat} (h : waitingQ2 s = some a) : ∃ e ∈ s.port.ring, e.st = .enqueued ∧ e.stamp = a := by
  obtain ⟨e, found, rfl⟩ := Option.map_eq_some_iff.1 h
  exact ⟨e, List.mem_of_find?_eq_some found, by simpa using List.find?_some found, rfl⟩

theorem execRecordRelease_q2 {s : State} {a : Nat} (due : s.port.release = true) (token : s.aon.tokens ≠ 0) (q2 : waitingQ2 s = some a)
    (q3 : ∀ b, waitingQ3 s = some b → a < b) :
    exec .recordRelease s = .next { s with
      aon := { s.aon with tokens := s.aon.tokens - 1 }, port := { s.port with ring := releaseQ2 s.port.ring, release := false } } := by
  have last : q3First s = false := by
    unfold q3First
    rw [q2]
    cases h : waitingQ3 s with
    | none => rfl
    | some b => exact decide_eq_false (Nat.not_le.2 (q3 b h))
  refine (if_neg (by simp [due, token])).trans ((if_neg ?_).trans (if_pos ?_))
  · exact Bool.eq_false_iff.1 last
  · exact (congrArg Option.isSome q2).trans rfl

theorem execRecordRelease_q3 {s : State} {b : Nat} (due : s.port.release = true) (token : s.aon.tokens ≠ 0) (q3 : waitingQ3 s = some b)
    (q2 : ∀ a, waitingQ2 s = some a → b ≤ a) :
    exec .recordRelease s = .next { s with
      aon := { s.aon with tokens := s.aon.tokens - 1 }, port := { s.port with release := false }
      duet := { s.duet with q3 := releaseQ3 s.duet.q3 } } := by
  have first : q3First s = true := by
    unfold q3First
    rw [q3]
    cases h : waitingQ2 s with
    | none => rfl
    | some a => exact decide_eq_true (q2 a h)
  exact (if_neg (by simp [due, token])).trans (if_pos first)

theorem recordRelease : Part.RecordRelease := by
  refine ⟨fun s n r e u due token ring waits before younger => ?_, fun s n r m u due token ring waits before younger => ?_, fun s idle => ?_⟩
  · have q2 : waitingQ2 s = some e.stamp := by rw [waitingQ2, ring, find_enqueued waits before, Option.map_some]
    rw [execRecordRelease_q2 due (by omega) q2, ring, releaseQ2_append waits before, token, Nat.add_sub_cancel]
    intro b found
    obtain ⟨m, mem, waiting, rfl⟩ := waitingQ3_mem found
    exact younger m mem waiting
  · have q3 : waitingQ3 s = some m.stamp := by rw [waitingQ3, ring, find_unreleased waits before, Option.map_some]
    rw [execRecordRelease_q3 due (by omega) q3, ring, releaseQ3_append waits before, token, Nat.add_sub_cancel]
    intro a found
    obtain ⟨e, mem, waiting, rfl⟩ := waitingQ2_mem found
    exact younger e mem waiting
  · refine (if_pos (by rw [idle]; rfl)).trans ?_
    rw [← idle]

/-- Settles O43, by induction on the edges: each adds the rate, the first that finds a token and a waiting entry is the last. -/
theorem gateRefill : Obligations.GateRefill := ⟨tokenRefill, gateCountsExactly, recordRelease⟩

end Sys2Proof.Gate
end

section
/-!
Row readout (R104, R105, R127 to R129): what a slot boundary makes of the planes' accumulators, staves and black levels, and O33.
-/
namespace Sys2Proof.Rows

open Sys2Proof.Machine Sys2Proof.Laws Sys2Proof.Stages

/-! ### What leaves a row as it is -/

/-- What the readout of rows has brought forth in a plane. -/
def rows (x : PlaneState) : Vector (Option (List Nat)) 16 × List Nat × Option Nat × Nat × Nat × Option Nat :=
  (x.stave, x.acc, x.coming, x.blackSum, x.black, x.blackNext)

/-- From `s` to `t` no row has been read, and the slot is the same. -/
structure SameRows (s t : State) : Prop where
  slot : t.metro.slot = s.metro.slot
  rows : ∀ p, rows (t.plane p) = rows (s.plane p)

theorem SameRows.refl (s : State) : SameRows s s := ⟨rfl, fun _ => rfl⟩

theorem SameRows.trans {s t u : State} (a : SameRows s t) (b : SameRows t u) : SameRows s u :=
  ⟨b.slot.trans a.slot, fun p => (b.rows p).trans (a.rows p)⟩

theorem SameRows.of_eq {s t u : State} (h : SameRows s t)
    (e : u.metro.slot = t.metro.slot ∧ Rows.rows u.planeW = Rows.rows t.planeW ∧ Rows.rows u.planeH = Rows.rows t.planeH) : SameRows s u :=
  h.trans ⟨e.1, fun p => match p with
    | .w => e.2.1
    | .h => e.2.2⟩

theorem sameRows_eccTrip {s t : State} (h : SameRows s t) (d addr : Nat) : SameRows s (eccTrip t d addr) := by
  unfold eccTrip
  split
  · exact h.of_eq ⟨rfl, rfl, rfl⟩
  · exact h.of_eq ⟨rfl, rfl, rfl⟩

theorem sameRows_samplePriv {s t : State} (h : SameRows s t) (pad : PadLevel) : SameRows s (samplePriv t pad) := by
  unfold samplePriv
  extract_lets
  split
  · exact h.of_eq ⟨rfl, rfl, rfl⟩
  · exact h.of_eq ⟨rfl, rfl, rfl⟩

theorem samplePriv_phase (s : State) (pad : PadLevel) : (samplePriv s pad).cond.phase = s.cond.phase := by
  unfold samplePriv
  extract_lets
  split <;> rfl

theorem sameRows_endStep3 {s t : State} (h : SameRows s t) : SameRows s (endStep3 t) := by
  unfold endStep3
  rw [discardLink_changes]
  exact h.of_eq ⟨rfl, rfl, rfl⟩

/-- Outside the step 3 of a reset a slot that is counted leaves the rows alone. -/
theorem sameRows_countSlot {s t : State} (h : SameRows s t) (phase : t.cond.phase ≠ .resetEntry) : SameRows s (countSlot t) := by
  have counted (f : Option Fermata) (d : Duet) (c : Conductor) : SameRows s { t with fermata := f, duet := d, cond := c } := h.of_eq ⟨rfl, rfl, rfl⟩
  unfold countSlot
  extract_lets _ u _ v
  split
  · split
    · unfold leaveStep3
      rw [if_neg phase]
      exact sameRows_endStep3 (counted _ _ _)
    · exact counted _ _ _
  · exact counted _ _ _

/-! ### What a slot boundary reads -/

theorem applyStops_idle {s : State} (stop : s.priv.stop = false) (ldoOff : s.priv.ldoOff = false) : applyStops s = s := by
  unfold applyStops
  simp [stop, ldoOff]

theorem checkDeadlines_changes (s : State) : ∃ (d : Vector Detector 20) (m : Metro) (e : Exec),
    checkDeadlines s = { s with dets := d, metro := m, exec := e } ∧ m.slot = s.metro.slot := by
  unfold checkDeadlines
  split
  · exact ⟨s.dets, s.metro, s.exec, rfl, rfl⟩
  · split
    · exact ⟨s.dets, s.metro, s.exec, rfl, rfl⟩
    · exact ⟨_, _, _, rfl, rfl⟩

theorem readPlane_changes (s : State) (p : Plane) (codes : List Code) : ∃ x, readPlane s p codes = s.setPlane p x := by
  have same : s = s.setPlane p (s.plane p) := by cases p <;> rfl
  unfold readPlane
  extract_lets x slot
  split
  · exact ⟨_, same⟩
  · split
    · exact ⟨_, rfl⟩
    · split
      · exact ⟨_, rfl⟩
      · exact ⟨_, same⟩

@[simp] theorem readPlane_metro (s : State) (p : Plane) (codes : List Code) : (readPlane s p codes).metro = s.metro := by
  obtain ⟨x, e⟩ := readPlane_changes s p codes
  rw [e, setPlane_metro]

@[simp] theorem readPlane_cond (s : State) (p : Plane) (codes : List Code) : (readPlane s p codes).cond = s.cond := by
  obtain ⟨x, e⟩ := readPlane_changes s p codes
  rw [e, setPlane_cond]

theorem readPlane_other (s : State) {p q : Plane} (codes : List Code) (h : q ≠ p) : (readPlane s p codes).plane q = s.plane q := by
  obtain ⟨x, e⟩ := readPlane_changes s p codes
  rw [e]
  match p, q, h with
  | .w, .h, _ => rfl
  | .h, .w, _ => rfl
  | .w, .w, h => exact absurd rfl h
  | .h, .h, h => exact absurd rfl h

/-- What a reading plane makes of the codes of a slot. -/
def slotRead (x : PlaneState) (p : Plane) (slot : Nat) (codes : List Code) : PlaneState :=
  match sourceRow p slot with
  | some r => x.convert r codes
  | none => if blackSlot p slot then x.convertBlack p (slot = 403 || slot = 407) codes else x

theorem readPlane_rows (s : State) (p : Plane) (codes : List Code) (h : (s.plane p).reading = true) :
    rows ((readPlane s p codes).plane p) = rows (slotRead (s.plane p) p s.metro.slot codes) := by
  unfold readPlane slotRead
  dsimp only
  rw [if_neg (by simp [h])]
  cases sourceRow p s.metro.slot with
  | some r =>
    dsimp only
    rw [setPlane_plane]
    rfl
  | none =>
    dsimp only
    split
    · rw [setPlane_plane]
    · rfl

/-- The codes that the boundary brings for a plane. -/
def codesFor (w : Vector Code 640) (h : Vector Code 320) : Plane → List Code
  | .w => w.toList
  | .h => h.toList

/-- Both planes' readouts, each from the state before. -/
theorem readPlanes_rows (s : State) (w : Vector Code 640) (h : Vector Code 320) (p : Plane) (reads : (s.plane p).reading = true) :
    rows ((readPlane (readPlane s .w w.toList) .h h.toList).plane p)
      = rows (slotRead (s.plane p) p s.metro.slot (codesFor w h p)) := by
  cases p with
  | w =>
    rw [readPlane_other _ _ (by decide)]
    exact readPlane_rows s .w w.toList reads
  | h =>
    have e : (readPlane s .w w.toList).plane .h = s.plane .h := readPlane_other s _ (by decide)
    rw [readPlane_rows _ .h h.toList (by rw [e]; exact reads), e, readPlane_metro]
    rfl

@[simp] theorem arrive_reading (x : PlaneState) : x.arrive.reading = x.reading := by
  unfold PlaneState.arrive
  extract_lets
  split <;> rfl

@[simp] theorem arrive_bin (x : PlaneState) : x.arrive.bin = x.bin := by
  unfold PlaneState.arrive
  extract_lets
  split <;> rfl

@[simp] theorem arrive_black (x : PlaneState) : x.arrive.black = x.black := by
  unfold PlaneState.arrive
  extract_lets
  split <;> rfl

@[simp] theorem arrive_blackSum (x : PlaneState) : x.arrive.blackSum = x.blackSum := by
  unfold PlaneState.arrive
  extract_lets
  split <;> rfl

/-- The slot that a boundary begins. -/
def slotBegun (s : State) : Nat := if s.metro.slot0 then 0 else s.metro.slot + 1

/-- A boundary before slot 444 reads, for a plane that reads, the row of the slot that it begins. -/
theorem slotWork_rows (s : State) (w : Vector Code 640) (h : Vector Code 320) (x : BoundaryRead) (p : Plane)
    (reads : (s.plane p).reading = true) (stop : s.priv.stop = false) (ldoOff : s.priv.ldoOff = false) (early : slotBegun s < 444)
    (phase : s.cond.phase ≠ .resetEntry) :
    (slotWork s w h x).metro.slot = slotBegun s
      ∧ rows ((slotWork s w h x).plane p) = rows (slotRead (s.plane p).arrive p (slotBegun s) (codesFor w h p)) := by
  unfold slotWork
  extract_lets first slot _ s1 s2 s3 s4 s5 entries s6 _ s7
  obtain ⟨d, m, e, checked, m_slot⟩ : ∃ (d : Vector Detector 20) (m : Metro) (e : Exec),
      s2 = { s with dets := d, metro := m, exec := e } ∧ m.slot = slotBegun s := by
    by_cases c : (first || s1.fermata.isSome) = true
    · exact ⟨s.dets, s1.metro, s.exec, if_pos c, rfl⟩
    · obtain ⟨d, m, e, k, l⟩ := checkDeadlines_changes s1
      exact ⟨d, m, e, (if_neg c).trans k, l⟩
  have stopped : s3 = { s2 with planeW := s2.planeW.arrive, planeH := s2.planeH.arrive } :=
    applyStops_idle (by rw [checked]; exact stop) (by rw [checked]; exact ldoOff)
  have arrived : s3.plane p = (s.plane p).arrive := by
    rw [stopped, checked]
    cases p <;> rfl
  have s3_slot : s3.metro.slot = slotBegun s := by
    rw [stopped, checked]
    exact m_slot
  have s3_phase : s3.cond.phase ≠ .resetEntry := by
    rw [stopped, checked]
    exact phase
  have read : rows (s4.plane p) = rows (slotRead (s.plane p).arrive p (slotBegun s) (codesFor w h p)) := by
    rw [← arrived, ← s3_slot]
    exact readPlanes_rows s3 w h p (by rw [arrived, arrive_reading]; exact reads)
  have s4_slot : s4.metro.slot = slotBegun s := by
    rw [← s3_slot]
    exact congrArg Metro.slot ((readPlane_metro _ _ _).trans (readPlane_metro _ _ _))
  have k5 : SameRows s4 s5 := sameRows_countSlot (sameRows_samplePriv (.refl s4) x.pad) (by
    rw [samplePriv_phase, readPlane_cond, readPlane_cond]
    exact s3_phase)
  have k7 : SameRows s4 s7 := k5.of_eq ⟨rfl, rfl, rfl⟩
  have done : SameRows s4 (if (!s5.counting) = true then s5
      else if (s7.metro.slot = 445 && s7.running && s7.fermata.all fun f => f.released) = true then startAtSlot445 s7 else s7) := by
    split
    · exact k5
    · rw [if_neg]
      · exact k7
      · have : s7.metro.slot ≠ 445 := by rw [k7.slot, s4_slot]; omega
        simp [this]
  exact ⟨done.slot.trans s4_slot, (done.rows p).trans read⟩

/-- Errors that a boundary's reads find leave the rows alone: they are those of the work on a state that differs in its OTP reads alone. -/
theorem withRomErrors_rows (s : State) (ups : List Upset) (act : State → State) :
    ∃ ws, SameRows (act (failingIn s ws)) (withRomErrors s ups act) := by
  by_cases h : romFailures ups = []
  · refine ⟨s.nvm.failing, ?_⟩
    rw [withRomErrors_none s ups act h]
    exact .refl _
  · refine ⟨romFailures ups, ?_⟩
    rw [withRomErrors_failing s ups act h]
    have trips (l : List Nat) {t u : State} (k : SameRows t u) : SameRows t (l.foldl (fun t w => eccTrip t 8 (8 * w)) u) := by
      induction l generalizing u with
      | nil => exact k
      | cons w l ih => exact ih (sameRows_eccTrip k _ _)
    exact trips _ ((SameRows.refl _).of_eq ⟨rfl, rfl, rfl⟩)

/-- A slot boundary before slot 444 reads, for a plane that reads, the row of the slot that it begins. -/
theorem slotBoundary_rows {s t : State} {w : Vector Code 640} {h : Vector Code 320} {x : BoundaryRead} {p : Plane} (done : slotDone s = true)
    (reads : (s.plane p).reading = true) (stop : s.priv.stop = false) (ldoOff : s.priv.ldoOff = false)
    (early : s.metro.slot0 = true ∨ s.metro.slot < 443) (phase : s.cond.phase ≠ .resetEntry)
    (next : exec (.slotBoundary w h x) s = .next t) :
    t.metro.slot = slotBegun s ∧ rows (t.plane p) = rows (slotRead (s.plane p).arrive p (slotBegun s) (codesFor w h p)) := by
  have begun : slotBegun s < 444 := by
    unfold slotBegun
    split
    · decide
    · rename_i c
      have := early.resolve_left c
      omega
  have work : exec (.slotBoundary w h x) s = .next (withRomErrors s (if s.running then x.ups else []) fun s => slotWork s w h x) :=
    if_pos (by
      rw [done, Bool.true_and, Bool.or_eq_true_iff, decide_eq_true_iff]
      exact early.imp_right fun _ => by omega)
  cases next.symm.trans work
  obtain ⟨ws, same⟩ := withRomErrors_rows s (if s.running then x.ups else []) fun s => slotWork s w h x
  have plane : (failingIn s ws).plane p = s.plane p := by cases p <;> rfl
  obtain ⟨slot, read⟩ := slotWork_rows (failingIn s ws) w h x p (by rw [plane]; exact reads) stop ldoOff begun phase
  rw [plane] at read
  exact ⟨same.slot.trans slot, (same.rows p).trans read⟩

/-! ### The row that arrives -/

theorem arrive_some {x : PlaneState} {k : Nat} (h : x.coming = some k) :
    x.arrive = { x with
      stave := x.stave.setIfInBounds k (some (x.acc.map fun v => (v + x.bin * x.bin / 2) / (x.bin * x.bin))), acc := [], coming := none } := by
  unfold PlaneState.arrive
  rw [h]

theorem arrive_none {x : PlaneState} (h : x.coming = none) : x.arrive = x := by
  unfold PlaneState.arrive
  rw [h]

theorem rowArrives : Part.RowArrives := by
  refine ⟨fun x k h => ?_, fun x h => arrive_none h⟩
  rw [arrive_some h]
  refine ⟨?_, rfl, rfl, fun j other => ?_⟩
  · exact Vector.getElem_setIfInBounds_self ..
  · exact Vector.getElem_setIfInBounds_ne _ fun e => other (Fin.ext e.symm)

/-! ### The row that is converted -/

theorem sourceRow_w {r : Nat} (h : r < 400) : sourceRow .w r = some r := if_pos h

theorem sourceRow_h {r : Nat} (h : r < 320) : sourceRow .h (5 * r / 4) = some r := by
  have e : (4 * (5 * r / 4) + 4) / 5 = r := by omega
  unfold sourceRow
  simp only [e]
  rw [if_pos (by simp; omega)]

/-- The slot in which a plane converts a row (Table 05-2). -/
def rowSlot (p : Plane) (r : Nat) : Nat :=
  match p with
  | .w => r
  | .h => 5 * r / 4

theorem sourceRow_rowSlot {p : Plane} {r : Nat} (h : r < planeHeight p) : sourceRow p (rowSlot p r) = some r :=
  match p with
  | .w => sourceRow_w h
  | .h => sourceRow_h h

theorem read_row {x : PlaneState} {p : Plane} {r : Nat} (h : r < planeHeight p) (codes : List Code) :
    slotRead x p (rowSlot p r) codes = x.convert r codes := by
  unfold slotRead
  rw [sourceRow_rowSlot h]

theorem sumInto_length (n : Nat) (acc vals : List Nat) : (sumInto n acc vals).length = vals.length / n := by
  rw [sumInto, List.length_map, List.length_range]

theorem take_drop_sum {l : List Nat} {a n : Nat} (h : a + n ≤ l.length) :
    ((l.drop a).take n).sum = ((List.range n).map fun i => l.getD (a + i) 0).sum := by
  congr 1
  refine List.ext_getElem (by simp; omega) fun i _ k => ?_
  have : a + i < l.length := by
    simp only [List.length_map, List.length_range] at k
    omega
  simp [this]

theorem sumInto_getD {n c : Nat} {acc vals : List Nat} (h : c < vals.length / n) :
    (sumInto n acc vals).getD c 0 = acc.getD c 0 + ((List.range n).map fun i => vals.getD (n * c + i) 0).sum := by
  have fits : n * c + n ≤ vals.length := (Nat.mul_le_mul_left n h).trans (Nat.mul_div_le _ _)
  rw [← take_drop_sum fits, List.getD_eq_getElem _ _ (by rw [sumInto_length]; exact h)]
  simp [sumInto]

theorem codesFor_length (w : Vector Code 640) (h : Vector Code 320) (p : Plane) : (codesFor w h p).length = planeWidth p := by
  cases p
  · exact Vector.length_toList
  · exact Vector.length_toList

theorem blackCorrect_getD (black : Nat) {codes : List Code} {i : Nat} (h : i < codes.length) :
    (codes.map (blackCorrect black)).getD i 0
      = (max 0 (min ((((codes.map (·.toNat)).getD i 0 : Nat) : Int) - roundDiv black 16) 1023)).toNat := by
  rw [List.getD_eq_getElem _ _ (by simpa using h), List.getD_eq_getElem _ _ (by simpa using h)]
  simp only [List.getElem_map, blackCorrect, clampInt]

/-- What a converted row adds to the column accumulator, column by column. -/
theorem convert_column (x : PlaneState) (r : Nat) {codes : List Code} {c : Nat} (h : c < codes.length / x.bin) :
    (x.convert r codes).acc.getD c 0 = x.acc.getD c 0
      + ((List.range x.bin).map fun i =>
          (max 0 (min ((((codes.map (·.toNat)).getD (x.bin * c + i) 0 : Nat) : Int) - roundDiv x.black 16) 1023)).toNat).sum := by
  show (sumInto x.bin x.acc (codes.map (blackCorrect x.black))).getD c 0 = _
  rw [sumInto_getD (by rwa [List.length_map])]
  congr 2
  refine List.map_congr_left fun i mem => blackCorrect_getD x.black ?_
  have within : x.bin * c + x.bin ≤ codes.length := (Nat.mul_le_mul_left _ h).trans (Nat.mul_div_le _ _)
  rw [List.mem_range] at mem
  omega

/-! ### The black rows -/

/-- The slot of a plane's black row. -/
def blackRowSlot (p : Plane) (j : Nat) : Nat :=
  match p with
  | .w => 400 + j
  | .h => 404 + j

theorem sourceRow_late {p : Plane} {slot : Nat} (h : 400 ≤ slot) : sourceRow p slot = none := by
  cases p with
  | w => exact if_neg (by omega)
  | h => exact if_neg (by rw [decide_eq_false (by omega), Bool.false_and]; exact Bool.false_ne_true)

theorem blackRowSlot_facts {p : Plane} {j : Nat} (h : j < 4) :
    400 ≤ blackRowSlot p j ∧ blackSlot p (blackRowSlot p j) = true
      ∧ (decide (blackRowSlot p j = 403) || decide (blackRowSlot p j = 407)) = decide (j = 3) := by
  interval_cases j <;> cases p <;> decide

theorem read_black {x : PlaneState} {p : Plane} {j : Nat} (h : j < 4) (codes : List Code) :
    slotRead x p (blackRowSlot p j) codes = x.convertBlack p (decide (j = 3)) codes := by
  obtain ⟨late, black, last⟩ := blackRowSlot_facts (p := p) h
  unfold slotRead
  rw [sourceRow_late late, ← last]
  exact if_pos black

/-- Rounding a quotient of natural numbers errs by half at most. -/
theorem roundDiv_near (n d : Nat) (h : 0 < d) : 2 * (((roundDiv n d).toNat * d : Nat) - (n : Nat) : Int).natAbs ≤ d := by
  have e : roundDiv n d = ((2 * n + d) / (2 * d) : Nat) := by
    unfold roundDiv
    rw [if_neg (by omega), Int.natAbs_natCast]
  rw [e, Int.toNat_natCast]
  have lower := Nat.mul_div_le (2 * n + d) (2 * d)
  have upper := Nat.lt_mul_div_succ (2 * n + d) (by omega : 0 < 2 * d)
  generalize (2 * n + d) / (2 * d) = q at lower upper ⊢
  have a : 2 * d * q = 2 * (q * d) := by ring
  have b : 2 * d * (q + 1) = 2 * (q * d) + 2 * d := by ring
  omega

/-- The next B_eff moves a quarter of the way to the mean of the black rows, which is right to half a unit (R128). -/
theorem convertBlack_last (x : PlaneState) (p : Plane) (codes : List Code) :
    let y := x.convertBlack p true codes
    ∃ b : Nat, 2 * ((b * (4 * planeWidth p) : Nat) - (16 * y.blackSum : Nat) : Int).natAbs ≤ 4 * planeWidth p
      ∧ y.blackNext = some ((x.black : Int) + roundDiv ((b : Int) - x.black) 4).toNat := by
  have wide : 0 < 4 * planeWidth p := by cases p <;> decide
  exact ⟨blackMean (x.convertBlack p true codes).blackSum p, roundDiv_near _ _ wide, rfl⟩

theorem convertBlack_stave (x : PlaneState) (p : Plane) (last : Bool) (codes : List Code) : (x.convertBlack p last codes).stave = x.stave := by
  cases last <;> rfl

theorem convertBlack_black (x : PlaneState) (p : Plane) (last : Bool) (codes : List Code) : (x.convertBlack p last codes).black = x.black := by
  cases last <;> rfl

theorem convertBlack_blackSum (x : PlaneState) (p : Plane) (last : Bool) (codes : List Code) :
    (x.convertBlack p last codes).blackSum = x.blackSum + (codes.map (·.toNat)).sum := by
  cases last <;> rfl

theorem read_stave (x : PlaneState) (p : Plane) (slot : Nat) (codes : List Code) : (slotRead x p slot codes).stave = x.stave := by
  unfold slotRead
  split
  · rfl
  · split
    · exact convertBlack_stave _ _ _ _
    · rfl

theorem rowConverts : Part.RowConverts := by
  intro s t w h pad ups bar p done reads stop ldoOff early phase next x y k codes
  obtain ⟨slot, read⟩ := slotBoundary_rows done reads stop ldoOff early phase next
  rw [← slot] at read
  simp only [rows, Prod.mk.injEq] at read
  obtain ⟨stave, acc, coming, blackSum, black, blackNext⟩ := read
  have all : codes = (codesFor w h p).map (·.toNat) := by cases p <;> rfl
  refine ⟨stave.trans (read_stave _ _ _ _), fun r low at' _ => ?_, fun j low at' => ?_⟩
  · have row : k = rowSlot p r := by cases p <;> exact at'
    rw [show t.metro.slot = rowSlot p r from row, read_row low] at acc coming
    have width := codesFor_length w h p
    refine ⟨?_, fun c col => ?_, coming.trans ?_⟩
    · rw [acc]
      show (sumInto x.arrive.bin _ _).length = _
      rw [sumInto_length, List.length_map, width, arrive_bin]
    · have column := convert_column x.arrive r (codes := codesFor w h p) (c := c) (by rwa [width, arrive_bin])
      rw [arrive_bin, arrive_black, ← all] at column
      rw [acc]
      exact column
    · show (if r % x.arrive.bin = x.arrive.bin - 1 then some (r / x.arrive.bin % 16) else none) = _
      rw [arrive_bin]
  · have row : k = blackRowSlot p j := by cases p <;> exact at'
    rw [show t.metro.slot = blackRowSlot p j from row, read_black low] at blackSum black blackNext
    refine ⟨?_, ?_, fun last => ?_⟩
    · rw [blackSum, convertBlack_blackSum, arrive_blackSum, all]
    · rw [black, convertBlack_black, arrive_black]
    · rw [blackSum, blackNext, decide_eq_true last]
      obtain ⟨b, near, next⟩ := convertBlack_last x.arrive p (codesFor w h p)
      exact ⟨b, near, by rw [next, arrive_black]⟩

/-- Settles O33: a boundary reads the row of its slot and nothing else touches a plane's rows before slot 444. -/
theorem rowReadout : Obligations.RowReadout := ⟨rowArrives, rowConverts⟩

end Sys2Proof.Rows
end

section
/-!
SUPPORT. Two frames, each an equation of states: filing records changes what records are made of, an error that a read finds changes detectors and what
stops with it. And the score's declarations are those of a state with the same OTP and straps.
-/
namespace Sys2Proof.Frames

open Sys2Proof.Machine Sys2Proof.Laws Sys2Proof.Stages

/-! ### Filing records (R266 to R281, R330) -/

/-- `s` with the rings, detectors and counters of `t` that filing records changes. -/
def refiled (s t : State) : State :=
  { s with
    aon := { s.aon with seq := t.aon.seq, dropFlag := t.aon.dropFlag, drops := t.aon.drops, unclean := t.aon.unclean }
    dets := t.dets
    port := { s.port with ring := t.port.ring }
    duet := { s.duet with q3 := t.duet.q3, change := t.duet.change, relayed := t.duet.relayed }
    cond := { s.cond with deferred := t.cond.deferred, overrunRec := t.cond.overrunRec }
    exec := { s.exec with
      clips := t.exec.clips, skipped := t.exec.skipped, restAge := t.exec.restAge, restWeak := t.exec.restWeak, marked := t.exec.marked } }

/-- From `s` to `t` records have been filed, and nothing else has happened. -/
def Filed (s t : State) : Prop := t = refiled s t

theorem Filed.refl (s : State) : Filed s s := rfl

theorem Filed.trans {s t u : State} (a : Filed s t) (b : Filed t u) : Filed s u := by
  unfold Filed at *
  rw [b, a]
  rfl

theorem Filed.ite {s a b : State} {c : Prop} [Decidable c] (x : Filed s a) (y : Filed s b) : Filed s (if c then a else b) := by
  split
  · exact x
  · exact y

theorem Filed.foldl {α : Type} {s t : State} (f : State → α → State) (l : List α) (k : ∀ u x, Filed u (f u x)) (h : Filed s t) :
    Filed s (l.foldl f t) := by
  induction l generalizing t with
  | nil => exact h
  | cons a l ih => exact ih (h.trans (k t a))

theorem filed_countDrop (s : State) (n : Nat) : Filed s (countDrop s n) := by
  unfold countDrop
  exact .ite rfl rfl

theorem filed_makeRoom (s : State) : Filed s (makeRoom s) := by
  unfold makeRoom
  refine .ite rfl (Filed.trans (t := { s with port := { s.port with ring := _ } }) rfl (filed_countDrop _ 1))

theorem filed_pushQ2 (s : State) (type flags src : Nat) (payload : List Byte) : Filed s (pushQ2 s type flags src payload) := rfl

theorem filed_enqueue (s : State) (type flags src : Nat) (payload : List Byte) : Filed s (pushQ2 (makeRoom s) type flags src payload) :=
  (filed_makeRoom s).trans (filed_pushQ2 _ _ _ _ _)

theorem filed_pushQ3 (s : State) (type : BitVec 4) (body : List Byte) : Filed s (pushQ3 s type body) := by
  unfold pushQ3
  exact .ite rfl (filed_countDrop s 1)

theorem filed_pushRelay (s : State) (type flags : Nat) (payload : List Byte) : Filed s (pushRelay s type flags payload) := by
  unfold pushRelay
  refine .ite (Filed.trans (t := { s with aon := { s.aon with dropFlag := false } }) rfl ?_) (filed_countDrop s 1)
  exact (filed_pushQ3 _ _ _).trans (filed_pushQ3 _ _ _)

theorem filed_pushRecord (s : State) (type : Nat) (stale : Bool) (src : Nat) (payload : State → List Byte) :
    Filed s (pushRecord s type stale src payload) :=
  .ite (filed_pushRelay s _ _ _) (filed_enqueue s _ _ _ _)

theorem filed_setDet (s : State) (d : Nat) (x : Detector) : Filed s (s.setDet d x) := rfl

theorem filed_trip (s : State) (d : Nat) (inj : Bool) (detail : BitVec 32) : Filed s (trip s d inj detail) := rfl

theorem filed_pushFault (s : State) (d : Nat) (ongoing : Bool) (step : Nat) : Filed s (pushFault s d ongoing step) :=
  (filed_pushRecord s _ _ _ _).trans (filed_setDet _ _ _)

theorem filed_pushChange (s : State) (cause frm dst len entry dur : Nat) : Filed s (pushChange s cause frm dst len entry dur) :=
  .ite (filed_pushRecord s _ _ _ _) ((filed_pushRecord s _ _ _ _).trans rfl)

theorem filed_noteChange (s : State) (cause frm dst len dur : Nat) : Filed s (noteChange s cause frm dst len dur) :=
  .ite rfl (filed_pushChange s _ _ _ _ _ _)

theorem filed_fermataRecords (s : State) (f : Fermata) (frm dst dur : Nat) : Filed s (fermataRecords s f frm dst dur) := by
  unfold fermataRecords
  exact Filed.trans (.ite ((filed_setDet s 3 _).trans (filed_pushFault _ _ _ _)) (.refl s)) (filed_noteChange _ _ _ _ _ _)

theorem filed_verdictFrame (s : State) (fresh : Bool) (v : Vector Byte 64) (summary : BitVec 32) : Filed s (verdictFrame s fresh v summary) := by
  unfold verdictFrame
  exact .ite (filed_pushQ3 s _ _) rfl

theorem filed_pushFaultAt444 (s : State) (d : Nat) : Filed s (pushFaultAt444 s d) := by
  unfold pushFaultAt444
  split
  · exact (filed_setDet s 1 _).trans (filed_pushFault _ _ _ _)
  · exact (filed_pushFault s 15 false 0).trans rfl
  · exact (filed_trip s 18 false 0).trans (filed_pushFault _ _ _ _)
  · split
    · exact ((filed_setDet s 19 _).trans (filed_pushFault _ _ _ _)).trans rfl
    · rfl
  · exact filed_pushFault s d _ 0

theorem filed_pushFaults (s : State) (capStarts complete : Bool) : Filed s (pushFaults s capStarts complete) :=
  .foldl _ _ (fun u d => .ite (filed_pushFaultAt444 u d) (.refl u)) (.refl s)

theorem filed_pushChanges (s : State) (startEnds : Bool) (chosen : PState) : Filed s (pushChanges s startEnds chosen) := by
  unfold pushChanges
  extract_lets st dur code own all _ _ t u _ v
  have k : Filed s t := rfl
  have start : Filed t u := .ite (filed_pushChange t _ _ _ _ _ _) (.refl t)
  refine .ite k ((k.trans start).trans (.foldl (s := u) (t := v) _ _ (fun w c => ?_) rfl))
  exact .foldl _ _ (fun x c => filed_pushChange x _ _ _ _ _ _) (.refl w)

theorem filed_pushPartners (s : State) (inStart stale : Bool) : Filed s (pushPartners s inStart stale) := by
  unfold pushPartners
  exact .ite (.foldl _ _ (fun u r => filed_enqueue u _ _ _ _) rfl) rfl

theorem filed_pushDiagnostics (s : State) (plan : Nat) : Filed s (pushDiagnostics s plan) := by
  unfold pushDiagnostics
  exact .ite ((filed_pushRecord s _ _ _ _).trans rfl) ((filed_pushRecord s _ _ _ _).trans rfl)

theorem filed_pushPlan (s : State) (plan src : Nat) (stale : Bool) (v : Vector Byte 64) (present : Bool) (gest : BitVec 3) (summary : BitVec 32) :
    Filed s (pushPlan s plan src stale v present gest summary) := by
  unfold pushPlan
  refine .ite rfl (.ite ?_ (.ite (filed_pushDiagnostics s plan) (filed_pushRecord s _ _ _ _)))
  exact ((filed_pushRecord s _ _ _ _).trans (filed_pushRecord _ _ _ _ _)).trans (filed_pushRecord _ _ _ _ _)

theorem filed_pushPlans (s : State) (src : Nat) (stale : Bool) (v : Vector Byte 64) (present : Bool) (gest : BitVec 3) (summary : BitVec 32) :
    Filed s (pushPlans s src stale v present gest summary) :=
  .foldl _ _ (fun u _ => .ite (filed_pushPlan u _ _ _ _ _ _ _) (.refl u)) (.refl s)

/-! ### Errors that reads find (R333, R359) -/

/-- `s` with what an error of `t` changes: detectors and memory, and all that it stops. -/
def retripped (s t : State) : State :=
  { s with
    dets := t.dets
    metro := { s.metro with issue := t.metro.issue }
    exec := { s.exec with q0 := t.exec.q0, q1 := t.exec.q1, stopped := t.exec.stopped, abandon := t.exec.abandon }
    ram := t.ram
    cond := { s.cond with force := t.cond.force }
    free := t.free }

/-- From `s` to `t` reads have found errors, and nothing else has happened. -/
def Tripped (s t : State) : Prop := t = retripped s t

theorem Tripped.refl (s : State) : Tripped s s := rfl

theorem Tripped.trans {s t u : State} (a : Tripped s t) (b : Tripped t u) : Tripped s u := by
  unfold Tripped at *
  rw [b, a]
  rfl

theorem Tripped.ite {s a b : State} {c : Prop} [Decidable c] (x : Tripped s a) (y : Tripped s b) : Tripped s (if c then a else b) := by
  split
  · exact x
  · exact y

theorem Tripped.foldl {α : Type} {s t : State} (f : State → α → State) (l : List α) (k : ∀ u x, Tripped u (f u x)) (h : Tripped s t) :
    Tripped s (l.foldl f t) := by
  induction l generalizing t with
  | nil => exact h
  | cons a l ih => exact ih (h.trans (k t a))

theorem tripped_trip (s : State) (d : Nat) (inj : Bool) (detail : BitVec 32) : Tripped s (trip s d inj detail) := rfl

theorem tripped_eccTrip (s : State) (d addr : Nat) : Tripped s (eccTrip s d addr) := by
  unfold eccTrip
  exact .ite rfl rfl

theorem tripped_takeUpset (s : State) (u : Upset) : Tripped s (takeUpset s u) := by
  unfold takeUpset
  refine .ite rfl (.ite (Tripped.trans (t := { s with ram := s.ram.upset (u.addr / 8) }) rfl (tripped_eccTrip _ _ _)) (tripped_trip s _ _ _))

theorem tripped_countInjected6 (s : State) (n : Nat) : Tripped s (countInjected6 s n) := by
  unfold countInjected6
  exact .ite (.ite rfl rfl) rfl

theorem tripped_readErrors (s : State) (ws : List Nat) (ups : List Upset) : Tripped s (readErrors s ws ups) := by
  unfold readErrors
  refine .ite rfl (.foldl _ _ (fun u w => tripped_eccTrip u 7 _) ?_)
  exact .foldl _ _ tripped_takeUpset (tripped_countInjected6 s _)

/-- The errors of a step's ROM and OTP reads come on top of what the step does. -/
theorem tripped_withRomErrors (s : State) (ups : List Upset) (act : State → State) (h : romFailures ups ≠ []) :
    Tripped (failingIn (act (failingIn s (romFailures ups))) s.nvm.failing) (withRomErrors s ups act) := by
  rw [withRomErrors_failing s ups act h]
  exact .foldl _ _ (fun u _ => tripped_eccTrip u 8 _) (.refl _)

/-- Where they fail, entries and queues are stopped and Tacet is to be chosen. -/
theorem eccTrip_stops (s : State) (addr : Nat) : Part.StoppedByRead (eccTrip s 8 addr) := by
  refine ⟨rfl, rfl, rfl, rfl, rfl, rfl, ?_⟩
  exact (trip_det s 8 false _ (by decide)).1

theorem withRomErrors_stops (s : State) (ups : List Upset) (act : State → State) (h : romFailures ups ≠ []) :
    Part.StoppedByRead (withRomErrors s ups act) := by
  rw [withRomErrors_failing s ups act h]
  generalize failingIn _ _ = t
  cases e : romFailures ups with
  | nil => exact absurd e h
  | cons w ws =>
    rw [List.foldl_cons]
    have stopped := eccTrip_stops t (8 * w)
    generalize eccTrip t 8 (8 * w) = u at stopped
    clear e
    induction ws generalizing u with
    | nil => exact stopped
    | cons w ws ih => exact ih _ (eccTrip_stops u _)

/-! ### The score -/

/-- Two states that read the same score: the same ROM and OTP, the same straps. -/
structure SameScore (s t : State) : Prop where
  nvm : t.nvm = s.nvm
  straps : t.boot.straps = s.boot.straps

theorem SameScore.refl (s : State) : SameScore s s := ⟨rfl, rfl⟩

theorem SameScore.trans {s t u : State} (a : SameScore s t) (b : SameScore t u) : SameScore s u :=
  ⟨b.nvm.trans a.nvm, b.straps.trans a.straps⟩

theorem Filed.score {s t : State} (h : Filed s t) : SameScore s t := by
  have e : t = refiled s t := h
  exact ⟨(congrArg State.nvm e :), (congrArg (fun x => x.boot.straps) e :)⟩

theorem Tripped.score {s t : State} (h : Tripped s t) : SameScore s t := by
  have e : t = retripped s t := h
  exact ⟨(congrArg State.nvm e :), (congrArg (fun x => x.boot.straps) e :)⟩

section
variable {s t : State} (h : SameScore s t)
include h

theorem SameScore.bodyU : bodyU t = bodyU s := by
  unfold Machine.bodyU bodyBytes bodyByte bodyLen State.sel
  rw [h.nvm, h.straps]

theorem SameScore.secU : secU t = secU s := by
  unfold Machine.secU secOff
  rw [h.bodyU]

theorem SameScore.secLen : secLen t = secLen s := by
  unfold Machine.secLen
  rw [h.bodyU]

theorem SameScore.verdictU : verdictU t = verdictU s := by
  unfold Machine.verdictU
  rw [h.secU]

theorem SameScore.nEff : nEff t = nEff s := by
  unfold Machine.nEff
  rw [h.secU]

theorem SameScore.limU : limU t = limU s := by
  unfold Machine.limU
  rw [h.secU]

theorem SameScore.nRule : nRule t = nRule s := by
  unfold Machine.nRule
  rw [h.secU]

theorem SameScore.stateRule : stateRule t = stateRule s := by
  unfold Machine.stateRule
  rw [h.secU]

theorem SameScore.maxState : maxState t = maxState s := by
  unfold Machine.maxState
  rw [h.secU]

theorem SameScore.blockElem (st : t.st = s.st) : blockElem t = blockElem s := by
  unfold Machine.blockElem
  rw [h.verdictU, st]

end

end Sys2Proof.Frames
end

section
/-!
SUPPORT. Slot 444 in two halves: up to the choice of state (pins, touch, cap, choice), and what follows from it (records, acts, exposures). Each half
is a frame, an equation of states; the values in it have lemmas of their own.
-/
namespace Sys2Proof.Slot444

open Sys2Proof.Machine Sys2Proof.Laws Sys2Proof.Stages Sys2Proof.Frames

/-! ### After the choice -/

/-- `s` with what slot 444 changes after its choice, taken from `t`. -/
def closing (s t : State) : State :=
  { s with
    aon := { s.aon with seq := t.aon.seq, dropFlag := t.aon.dropFlag, drops := t.aon.drops, unclean := t.aon.unclean }
    dets := t.dets
    port := { s.port with ring := t.port.ring }
    duet := { s.duet with q3 := t.duet.q3, change := t.duet.change, relayed := t.duet.relayed, held := t.duet.held }
    cond := { s.cond with
      deferred := t.cond.deferred, overrunRec := t.cond.overrunRec, force := t.cond.force, next := t.cond.next
      past444 := t.cond.past444, starting := t.cond.starting, good := t.cond.good }
    exec := { s.exec with
      clips := t.exec.clips, skipped := t.exec.skipped, restAge := t.exec.restAge, restWeak := t.exec.restWeak, marked := t.exec.marked
      q0 := t.exec.q0, q1 := t.exec.q1, stopped := t.exec.stopped, abandon := t.exec.abandon }
    metro := { s.metro with issue := t.metro.issue }
    ram := t.ram
    free := t.free
    accent := t.accent
    limiter := { s.limiter with armed := t.limiter.armed }
    planeW := t.planeW
    planeH := t.planeH }

/-- From `s` to `t` slot 444 has done work that follows its choice. -/
def Closes (s t : State) : Prop := t = closing s t

theorem Closes.trans {s t u : State} (a : Closes s t) (b : Closes t u) : Closes s u := by
  unfold Closes at *
  rw [b, a]
  rfl

theorem Closes.ite {s a b : State} {c : Prop} [Decidable c] (x : Closes s a) (y : Closes s b) : Closes s (if c then a else b) := by
  split
  · exact x
  · exact y

theorem Filed.closes {s t : State} (h : Filed s t) : Closes s t := by
  unfold Closes
  rw [show t = refiled s t from h]
  rfl

theorem Tripped.closes {s t : State} (h : Tripped s t) : Closes s t := by
  unfold Closes
  rw [show t = retripped s t from h]
  rfl

theorem closes_wakeAction (s : State) (v : Vector Byte 64) : Closes s (wakeAction s v) := by
  unfold wakeAction
  exact .ite (Filed.closes (filed_pushQ3 s _ _)) rfl

theorem closes_swapAction (s : State) (v : Vector Byte 64) : Closes s (swapAction s v) := by
  unfold swapAction
  exact .ite (.ite (Filed.closes (filed_pushQ3 s _ _)) rfl) rfl

theorem closes_actVerdict (s : State) (v : Vector Byte 64) : Closes s (actVerdict s v) := by
  unfold actVerdict
  extract_lets e t
  have armed : Closes s t := .ite rfl rfl
  exact armed.trans ((closes_wakeAction t v).trans (closes_swapAction _ v))

theorem closes_noteChoice (s : State) (chosen : PState) : Closes s (noteChoice s chosen) := by
  unfold noteChoice
  exact .ite rfl (.ite rfl rfl)

theorem closes_setExposures (s : State) (st : Nat) (ups : List Upset) : Closes s (setExposures s st ups) := by
  unfold setExposures
  extract_lets asks t
  have read : Closes s t := .ite (Tripped.closes (tripped_readErrors s _ _)) rfl
  exact read.trans rfl

theorem closes_closed444 (s : State) (c : State × PState × Bool) (t : State) (ups : List Upset) : Closes t (closed444 s c t ups) := by
  unfold closed444
  extract_lets _ a b d
  have acts : Closes t a := .ite (closes_actVerdict t _) rfl
  have notes : Closes a b := .ite (closes_noteChoice a _) rfl
  exact (acts.trans (notes.trans (closes_setExposures b _ _))).trans rfl

/-- The records of slot 444 are filed in the state that the choice leaves. -/
theorem filed_recorded (s : State) (c : State × PState × Bool) : Filed (if enters c then tacetValues c.1 else c.1) (recorded s c) := by
  unfold recorded
  extract_lets _ _ _ _ t a b d _ e
  have frames : Filed t b := (filed_verdictFrame t _ _ _).trans (filed_pushFaults a _ _)
  have records : Filed t e := frames.trans ((filed_pushChanges b _ _).trans (filed_pushPartners d _ _))
  exact .ite records (records.trans (filed_pushPlans e _ _ _ _ _ _))

/-! ### Up to the choice -/

/-- `s` with what slot 444 changes before it chooses, taken from `t`. -/
def settling (s t : State) : State :=
  { s with
    aon := { s.aon with warnCap := t.aon.warnCap, capNext := t.aon.capNext, cleanBars := t.aon.cleanBars }
    touch := t.touch
    cond := { s.cond with
      present := t.cond.present, gest := t.cond.gest, touchN := t.cond.touchN, age := t.cond.age, stale := t.cond.stale, hold := t.cond.hold } }

/-- From `s` to `t` slot 444 has done work that comes before its choice. -/
def Settles (s t : State) : Prop := t = settling s t

theorem Settles.trans {s t u : State} (a : Settles s t) (b : Settles t u) : Settles s u := by
  unfold Settles at *
  rw [b, a]
  rfl

theorem Settles.ite {s a b : State} {c : Prop} [Decidable c] (x : Settles s a) (y : Settles s b) : Settles s (if c then a else b) := by
  split
  · exact x
  · exact y

theorem settles_applyPins (s : State) (fresh : Bool) (v : Vector Byte 64) (summary : BitVec 32) : Settles s (applyPins s fresh v summary) := by
  unfold applyPins
  extract_lets _ _ a w _ b _ d
  have pins : Settles s a := .ite rfl rfl
  have woken : Settles s b := pins.trans rfl
  have rests : Settles b d := .ite rfl rfl
  exact (woken.trans rests).trans rfl

theorem settles_pinned (s : State) : Settles s (pinned s) := by
  unfold pinned
  exact .ite rfl (settles_applyPins s _ _ _)

theorem settles_touched444 (s : State) : Settles s (touched444 s) := (settles_pinned s).trans rfl

theorem settles_settled (s : State) : Settles s (settled s) := by
  unfold settled
  exact .ite ((settles_touched444 s).trans rfl) (settles_touched444 s)

/-- `s` with what slot 444 changes up to its choice, taken from `t`. -/
def choosing (s t : State) : State :=
  { settling s t with
    duet := { s.duet with noticed := t.duet.noticed }
    codes := t.codes
    cond := { (settling s t).cond with rules := t.cond.rules, force := t.cond.force, locked := t.cond.locked } }

/-- From `s` to `t` slot 444 has made its choice. -/
def Chosen (s t : State) : Prop := t = choosing s t

theorem Chosen.trans {s t u : State} (a : Chosen s t) (b : Chosen t u) : Chosen s u := by
  unfold Chosen at *
  rw [b, a]
  rfl

theorem Chosen.ite {s a b : State} {c : Prop} [Decidable c] (x : Chosen s a) (y : Chosen s b) : Chosen s (if c then a else b) := by
  split
  · exact x
  · exact y

theorem Settles.chosen {s t : State} (h : Settles s t) : Chosen s t := by
  unfold Chosen
  rw [show t = settling s t from h]
  rfl

/-- The counts of the rules taken note of, and a NOTICE. -/
def counted (s : State) (wake : Bool) : State :=
  { s with
    cond := { s.cond with rules := if s.follower then s.cond.rules else countRules s (wakeLevel s wake) }
    duet := { s.duet with noticed := false } }

/-- The choice before floor and caps. -/
def based (s : State) (wake : Bool) : PState :=
  if s.duet.noticed then .tacet
  else if s.follower then s.duet.pState.getD s.cond.state
  else chooseState s (countRules s (wakeLevel s wake))

/-- A forced Tacet is chosen and locked. -/
def forced (s : State) : State := { s with cond := { s.cond with force := false, locked := true } }

theorem decide444_eq (s : State) (wake : Bool) : decide444 s wake =
    if s.cond.force then (forced (counted s wake), .tacet) else (counted s wake, effective (counted s wake) (wakeLevel s wake) (based s wake)) := by
  have rules : (if (!s.follower) = true then countRules s (wakeLevel s wake) else s.cond.rules)
      = if s.follower then s.cond.rules else countRules s (wakeLevel s wake) := by
    cases s.follower <;> rfl
  unfold decide444 counted
  rw [← rules]
  rfl

section
variable {s : State} (wake : Bool)

theorem choose_live (live : s.fermata = none) (free : s.cond.force = false) :
    choose s wake = (counted s wake, effective (counted s wake) (wakeLevel s wake) (based s wake), true) := by
  unfold choose
  rw [decide444_eq, live, free]
  rfl

theorem choose_forced (live : s.fermata = none) (force : s.cond.force = true) : choose s wake = (forced (counted s wake), .tacet, true) := by
  unfold choose
  rw [decide444_eq, live, force]
  rfl

theorem choose_fermata (held : s.fermata.isSome) (free : s.cond.force = false) : choose s wake = (s, s.cond.next.getD s.cond.state, false) := by
  obtain ⟨f, e⟩ := Option.isSome_iff_exists.mp held
  unfold choose
  rw [e, free]
  rfl

theorem choose_fermata_forced (held : s.fermata.isSome) (force : s.cond.force = true) :
    choose s wake = (forced s, .tacet, decide (s.cond.next ≠ some .tacet)) := by
  unfold choose
  rw [if_neg (by simp [Option.isSome_iff_ne_none.mp held]), if_pos force]
  rfl

end

/-- The choice changes the counts of rules, the note of a NOTICE, and the force and lock of a forced Tacet. -/
theorem choose_frame (s : State) (wake : Bool) :
    let t := (choose s wake).1
    t = { s with
      duet := { s.duet with noticed := t.duet.noticed }
      cond := { s.cond with rules := t.cond.rules, force := t.cond.force, locked := t.cond.locked } } := by
  cases e : s.fermata.isSome with
  | false =>
    have live : s.fermata = none := Option.isNone_iff_eq_none.mp (by simpa using e)
    cases k : s.cond.force with
    | false => rw [choose_live wake live k]; rfl
    | true => rw [choose_forced wake live k]; rfl
  | true =>
    cases k : s.cond.force with
    | false => rw [choose_fermata wake e k]
    | true => rw [choose_fermata_forced wake e k]; rfl

theorem chosen_choose (s : State) (wake : Bool) : Chosen s (choose s wake).1 := by
  unfold Chosen
  rw [choose_frame s wake]
  rfl

/-- The state in which slot 444 has made its choice, and taken the pins of Tacet when that is the choice. -/
def chosen444 (s : State) (wake : Bool) : State :=
  let c := choose (settled s) wake
  if enters c then tacetValues c.1 else c.1

theorem chosen_chosen444 (s : State) (wake : Bool) : Chosen s (chosen444 s wake) := by
  have first : Chosen s (choose (settled s) wake).1 := (Settles.chosen (settles_settled s)).trans (chosen_choose _ wake)
  unfold chosen444
  exact .ite (first.trans rfl) first

/-- The two halves. -/
theorem closes_conductorWork (s : State) (wake : Bool) (ups : List Upset) : Closes (chosen444 (at444 s) wake) (conductorWork s wake ups) := by
  rw [conductorWork_eq]
  exact (Filed.closes (filed_recorded _ _)).trans (closes_closed444 _ _ _ _)

/-- All that slot 444 changes: what leads to its choice, and what follows from it. -/
theorem conductorWork_frame (s : State) (wake : Bool) (ups : List Upset) : conductorWork s wake ups
    = closing (choosing (at444 s) (chosen444 (at444 s) wake)) (conductorWork s wake ups) := by
  have first : chosen444 (at444 s) wake = choosing (at444 s) (chosen444 (at444 s) wake) := chosen_chosen444 _ wake
  rw [← first]
  exact closes_conductorWork s wake ups

end Sys2Proof.Slot444
end

section
/-!
SUPPORT. A verdict's freshness, the count of the bars without one, and the pins that slot 444 makes of either (R18, R73 to R75, R255, R299).
-/
namespace Sys2Proof.Pins444

open Sys2Proof.Machine Sys2Proof.Laws Sys2Proof.Stages Sys2Proof.Frames Sys2Proof.Slot444 Sys2Proof.Safety

theorem verdictWhole_iff (s : State) : verdictWhole s = true ↔ Whole s := by
  have planes : (∃ p, stPlane s s.st p = true) ↔ (stPlane s s.st .w || stPlane s s.st .h) = true := by
    rw [Bool.or_eq_true]
    constructor
    · rintro ⟨_ | _, h⟩
      · exact .inl h
      · exact .inr h
    · rintro (h | h)
      · exact ⟨_, h⟩
      · exact ⟨_, h⟩
  have unpack : Whole s ↔ s.cond.taken = true ∧ s.metro.sched = true ∧ s.fermata = none ∧ s.priv.restart = false
      ∧ ((∃ p, stPlane s s.st p = true) → s.priv.byThermal = false ∧ s.priv.byLed = false ∧ s.priv.byPath = false) :=
    ⟨fun ⟨taken, sched, live, restart, read⟩ => ⟨taken, sched, live, restart, read⟩,
      fun ⟨taken, sched, live, restart, read⟩ => ⟨taken, sched, live, restart, read⟩⟩
  rw [unpack, planes]
  unfold verdictWhole
  simp [and_assoc, imp_iff_not_or]

theorem verdictFresh_iff (s : State) : verdictFresh s = true ↔ Fresh s := by
  unfold verdictFresh Fresh
  rw [Bool.and_eq_true, verdictWhole_iff, Bool.not_eq_true']

theorem verdictFresh_eq_false (s : State) : verdictFresh s = false ↔ ¬Fresh s := by
  rw [← verdictFresh_iff, Bool.not_eq_true]

/-! ### Bars without a fresh verdict -/

theorem countStale_hold (s : State) : (countStale s).cond.hold =
    if s.cond.stale = 0 && verdictWhole s then s.cond.hold else s.cond.hold + 7200 * stDivisor s s.st / tempoRate s.boot.tempo := rfl

theorem counted_iff (s : State) (stale hold : Nat) : Counted s stale hold ↔ stale = (countStale s).cond.stale ∧ hold = (countStale s).cond.hold := by
  have first : (s.cond.stale = 0 && verdictWhole s) = true ↔ s.cond.stale = 0 ∧ Whole s := by
    rw [Bool.and_eq_true, decide_eq_true_iff, verdictWhole_iff]
  rw [countStale_hold]
  refine and_congr_right fun _ => ?_
  by_cases k : s.cond.stale = 0 ∧ Whole s
  · rw [if_pos (first.mpr k)]
    exact ⟨fun h => h.1 k, fun h => ⟨fun _ => h, fun n => absurd k n⟩⟩
  · rw [if_neg (fun h => k (first.mp h))]
    exact ⟨fun h => h.2 k, fun h => ⟨fun n => absurd n k, fun _ => h⟩⟩

theorem counted_countStale (s : State) : Counted s (countStale s).cond.stale (countStale s).cond.hold :=
  (counted_iff s _ _).mpr ⟨rfl, rfl⟩

/-! ### The pins -/

/-- The pins of slot 444 before a wake gesture and a follower's rest. -/
def rawPins (s : State) (v : Vector Byte 64) : Bool × BitVec 3 :=
  if verdictFresh s then (mapPresent s v, mapGest s v) else ((fallBack s).cond.present, (fallBack s).cond.gest)

theorem rawPins_fresh {s : State} (h : Fresh s) (v : Vector Byte 64) : rawPins s v = (mapPresent s v, mapGest s v) :=
  if_pos ((verdictFresh_iff s).mpr h)

theorem rawPins_stale {s : State} (h : ¬Fresh s) (v : Vector Byte 64) :
    rawPins s v = ((fallBack s).cond.present, (fallBack s).cond.gest) :=
  if_neg (fun k => h ((verdictFresh_iff s).mp k))

/-- `s` with the pins of a wake gesture on top of its own. -/
def wakened (s : State) (summary : BitVec 32) : State :=
  let w := wakePins s summary (s.cond.present, s.cond.gest)
  { s with cond := { s.cond with present := w.1, gest := w.2 } }

/-- `s` with a follower's pins at rest. -/
def rested (s : State) : State := if s.follower then { s with cond := { s.cond with present := false, gest := 7 } } else s

theorem rested_pins (s : State) : ((rested s).cond.present, (rested s).cond.gest) = if s.follower then (false, 7) else (s.cond.present, s.cond.gest) := by
  unfold rested
  split <;> rfl

theorem rested_stale (s : State) : (rested s).cond.stale = s.cond.stale ∧ (rested s).cond.hold = s.cond.hold := by
  unfold rested
  split <;> exact ⟨rfl, rfl⟩

/-- Pins and counts of a fresh verdict, or of a bar without one. -/
def judged (s : State) (fresh : Bool) (v : Vector Byte 64) : State :=
  if fresh then { s with cond := { s.cond with stale := 0, hold := 0, present := mapPresent s v, gest := mapGest s v } } else fallBack s

theorem applyPins_eq (s : State) (fresh : Bool) (v : Vector Byte 64) (summary : BitVec 32) :
    ∃ age, applyPins s fresh v summary
      = (let t := rested (wakened (judged s fresh v) summary); { t with cond := { t.cond with age := age } }) :=
  ⟨_, rfl⟩

theorem applyPins_pins (s : State) (v : Vector Byte 64) (summary : BitVec 32) :
    let t := applyPins s (verdictFresh s) v summary
    (t.cond.present, t.cond.gest) = if s.follower then (false, 7) else wakePins s summary (rawPins s v) := by
  obtain ⟨age, e⟩ := applyPins_eq s (verdictFresh s) v summary
  rw [e]
  refine (rested_pins _).trans ?_
  unfold rawPins judged
  cases verdictFresh s <;> rfl

theorem applyPins_counts (s : State) (fresh : Bool) (v : Vector Byte 64) (summary : BitVec 32) :
    let t := applyPins s fresh v summary
    t.cond.stale = (if fresh then 0 else (countStale s).cond.stale) ∧ t.cond.hold = (if fresh then 0 else (countStale s).cond.hold) := by
  obtain ⟨age, e⟩ := applyPins_eq s fresh v summary
  rw [e]
  obtain ⟨stale, hold⟩ := rested_stale (wakened (judged s fresh v) summary)
  refine ⟨stale.trans ?_, hold.trans ?_⟩
  · cases fresh <;> rfl
  · cases fresh <;> rfl

/-- The pins of slot 444 change the Conductor alone. -/
theorem applyPins_frame (s : State) (fresh : Bool) (v : Vector Byte 64) (summary : BitVec 32) :
    applyPins s fresh v summary = { s with cond := (applyPins s fresh v summary).cond } := by
  obtain ⟨age, e⟩ := applyPins_eq s fresh v summary
  have judges : judged s fresh v = { s with cond := (judged s fresh v).cond } := by
    unfold judged
    split <;> rfl
  have rests (t : State) : rested t = { t with cond := (rested t).cond } := by
    unfold rested
    split <;> rfl
  rw [e, rests, judges]
  rfl

theorem pinned_frame (s : State) : pinned s = { s with cond := (pinned s).cond } := by
  unfold pinned
  split
  · rfl
  · exact applyPins_frame s _ _ _

theorem mapPresent_iff (s : State) (v : Vector Byte 64) : mapPresent s v = true ↔
    bitAt (verdictU s s.st 0 1) 7 = true ∧ verdictU s s.st 1 1 ≤ ((v[field (verdictU s s.st 0 1) 0 6]?).getD 0).toNat := by
  unfold mapPresent elem
  rw [Bool.and_eq_true, decide_eq_true_iff]

theorem mapGest_toNat (s : State) (v : Vector Byte 64) : (mapGest s v).toNat = if named s v 2 ≤ 6 then named s v 2 else 0 := by
  show (if named s v 2 ≤ 6 then BitVec.ofNat 3 (named s v 2) else 0).toNat = _
  split
  · rw [BitVec.toNat_ofNat]
    omega
  · rfl

theorem st_eq_one (s : State) : s.st = 1 ↔ s.cond.state = .pianissimo := by
  unfold State.st
  cases s.cond.state <;> decide

theorem woken_iff (s : State) : (s.st = 1 && s.touch.summary.getLsbD 16) = true ↔ Woken s := by
  unfold Woken
  rw [Bool.and_eq_true, decide_eq_true_iff, st_eq_one]

/-- Pins that come from a follower's rest, or from a verdict or its absence and a wake gesture, are those of slot 444. -/
theorem pins_of_eq {s : State} {present : Bool} {gest : BitVec 3}
    (pins : (present, gest) = if s.follower then (false, 7) else wakePins s s.touch.summary (rawPins s (appliedVerdict s))) :
    Pins s present gest := by
  refine ⟨fun f => ?_, fun f => ⟨(rawPins s (appliedVerdict s)).1, (rawPins s (appliedVerdict s)).2, fun fresh => ?_, fun old stale hold h => ?_, fun w => ?_, fun w => ?_⟩⟩
  · rw [if_pos f] at pins
    exact Prod.mk.inj pins
  · rw [rawPins_fresh fresh]
    exact ⟨mapPresent_iff s _, mapGest_toNat s _⟩
  · rw [rawPins_stale old]
    obtain ⟨rfl, rfl⟩ := (counted_iff s stale hold).mp h
    exact ⟨rfl, rfl⟩
  · rw [if_neg (by simp [f]), wakePins, if_neg (fun k => w ((woken_iff s).mp k))] at pins
    exact Prod.mk.inj pins
  · rw [if_neg (by simp [f]), wakePins, if_pos ((woken_iff s).mpr w)] at pins
    exact Prod.mk.inj pins

end Sys2Proof.Pins444
end

section
/-!
The choice of slot 444 (R22, R44, R95, R98, R298, R303, R314): floor and caps, the rules' counts and their first match, and what the bar's choice makes
of the pins.
-/
namespace Sys2Proof.Conductor

open Sys2Proof.Machine Sys2Proof.Laws Sys2Proof.Stages Sys2Proof.Frames Sys2Proof.Slot444 Sys2Proof.Pins444 Sys2Proof.Safety

/-! ### States by number -/

theorem ofNum_num (a : PState) : PState.ofNum a.num = a := by cases a <;> rfl

theorem num_ofNum {n : Nat} (h : n < 4) : (PState.ofNum n).num = n := by interval_cases n <;> rfl

theorem num_min (a b : PState) : (PState.min a b).num = min a.num b.num := by
  unfold PState.min
  split <;> omega

theorem num_max (a b : PState) : (PState.max a b).num = max a.num b.num := by
  unfold PState.max
  split <;> omega

/-! ### Floor and caps (R22) -/

/-- The highest state that the limits, throttling and the warning cap allow. -/
def capNum (s : State) : Nat := if s.thermal.throttle || s.inject 4 || s.aon.warnCap then min (maxState s) 2 else maxState s

theorem stateCap_num (s : State) : (stateCap s).num = capNum s := by
  have limit : (PState.ofNum (maxState s)).num = maxState s := num_ofNum (Nat.mod_lt _ (by decide))
  have mezzo : PState.num .mezzo = 2 := rfl
  unfold stateCap capNum
  cases s.thermal.throttle || s.inject 4 <;> cases s.aon.warnCap <;> simp [num_min, limit, mezzo]

theorem effective_eq (s : State) (wake : Bool) (base : PState) :
    effective s wake base = PState.ofNum (min (capNum s) (max (if wake then 2 else 0) base.num)) := by
  rw [← ofNum_num (effective s wake base)]
  unfold effective
  rw [num_min, num_max, stateCap_num]
  cases wake <;> rfl

/-! ### The state table (R314) -/

theorem ruleHolds_iff (r : Nat) (present : Bool) (gest : BitVec 3) (wake : Bool) :
    ruleHolds r present gest wake = true ↔ RuleHolds r present gest wake := by
  unfold ruleHolds RuleHolds
  cases present <;> cases wake <;> simp [and_assoc]

theorem countRules_getD (s : State) (wake : Bool) {i : Nat} (h : i < nRule s) : (countRules s wake).getD i 0 =
    if ruleHolds (stateRule s i) s.cond.present s.cond.gest wake then min (s.cond.rules.getD i 0 + 1) 2047 else 0 := by
  unfold countRules
  simp [List.getD_eq_getElem?_getD, h]

/-- Rule `i` fits the state and has been true for as many bars as it asks. -/
def qualifies (s : State) (counts : List Nat) (i : Nat) : Bool :=
  let r := stateRule s i
  (field r 0 2 = 0 || field r 0 2 = s.st) && field r 17 11 ≤ counts.getD i 0 && field r 2 2 ≠ s.st

theorem qualifies_iff (s : State) (counts : List Nat) (i : Nat) : Qualifies s counts i ↔ i < nRule s ∧ qualifies s counts i = true := by
  simp [Qualifies, qualifies, and_assoc]

theorem chooseState_eq (s : State) (counts : List Nat) : chooseState s counts =
    ((List.range (nRule s)).find? (qualifies s counts)).elim s.cond.state fun i => PState.ofNum (field (stateRule s i) 2 2) := by
  unfold chooseState
  extract_lets st
  split
  · rename_i i e
    rw [show (List.range (nRule s)).find? (qualifies s counts) = some i from e]
    rfl
  · rename_i e
    rw [show (List.range (nRule s)).find? (qualifies s counts) = none from e]
    rfl

/-- The first rule that qualifies gives the state; without one the state stays. -/
theorem chooseState_spec (s : State) (counts : List Nat) :
    (∀ i, Qualifies s counts i → (∀ j, j < i → ¬Qualifies s counts j) → chooseState s counts = PState.ofNum (field (stateRule s i) 2 2))
      ∧ ((∀ i, ¬Qualifies s counts i) → chooseState s counts = s.cond.state) := by
  rw [chooseState_eq]
  refine ⟨fun i holds least => ?_, fun no => ?_⟩
  · obtain ⟨lt, holds⟩ := (qualifies_iff s counts i).mp holds
    rw [List.find?_range_eq_some.mpr ⟨holds, List.mem_range.mpr lt, fun j earlier => ?_⟩]
    · rfl
    · rw [Bool.not_eq_true']
      exact Bool.eq_false_iff.mpr fun k => least j earlier ((qualifies_iff s counts j).mpr ⟨earlier.trans lt, k⟩)
  · rw [List.find?_range_eq_none.mpr fun i lt => ?_]
    · rfl
    · rw [Bool.not_eq_true']
      exact Bool.eq_false_iff.mpr fun k => no i ((qualifies_iff s counts i).mpr ⟨lt, k⟩)

/-- WAKE as the rules and the floor take it: the pin, or a window of a WAKE frame. -/
theorem wakeLevel_iff (s : State) (wake : Bool) : wakeLevel s wake = true
    ↔ wake = true ∨ ∃ w ∈ s.duet.wakes, 1 ≤ (s.aon.bar - w.1).toNat ∧ (s.aon.bar - w.1).toNat ≤ w.2.toNat := by
  unfold wakeLevel
  simp

/-! ### What the choice is at the end of slot 444 -/

theorem noteChoice_next (s : State) (chosen : PState) : (noteChoice s chosen).cond.next =
    if chosen = .tacet then some .tacet else if chosen = s.cond.state then none else some chosen := by
  unfold noteChoice
  split
  · rfl
  · split <;> rfl

theorem setExposures_next (s : State) (st : Nat) (ups : List Upset) : (setExposures s st ups).cond.next = s.cond.next := by
  unfold setExposures
  extract_lets asks t
  have read : Tripped s t := .ite (tripped_readErrors s _ _) (.refl s)
  exact (congrArg (fun x => x.cond.next) read :)

theorem filed_wakeAction (s : State) (v : Vector Byte 64) : Filed s (wakeAction s v) := by
  unfold wakeAction
  exact .ite (filed_pushQ3 s _ _) (.refl s)

theorem Filed.held {s t : State} (h : Filed s t) : Filed { s with duet := { s.duet with held := t.duet.held } } t := by
  unfold Filed
  rw [show t = refiled s t from h]
  rfl

theorem filed_swapAction (s : State) (v : Vector Byte 64) :
    Filed { s with duet := { s.duet with held := (swapAction s v).duet.held } } (swapAction s v) := by
  unfold swapAction
  split
  · split
    · exact Filed.held (filed_pushQ3 s _ _)
    · rfl
  · rfl

/-- The effect that a fresh verdict triggers. -/
def triggered (s : State) (v : Vector Byte 64) : State :=
  if 1 ≤ blockElem s v 3 && blockElem s v 3 ≤ nEff s then { s with accent := triggerEffect s.accent (blockElem s v 3) } else s

theorem actVerdict_eq (s : State) (v : Vector Byte 64) : actVerdict s v = swapAction (wakeAction (triggered s v) v) v := rfl

/-- A fresh verdict's acts: an effect, frames, a held swap request. -/
theorem filed_actVerdict (s : State) (v : Vector Byte 64) : Filed
    { triggered s v with duet := { (triggered s v).duet with held := (actVerdict s v).duet.held } } (actVerdict s v) := by
  have woken : Filed (triggered s v) (wakeAction (triggered s v) v) := filed_wakeAction _ v
  have swapped := filed_swapAction (wakeAction (triggered s v) v) v
  rw [← actVerdict_eq] at swapped
  unfold Filed at *
  rw [woken] at swapped
  exact swapped

theorem triggered_cond (s : State) (v : Vector Byte 64) : (triggered s v).cond = s.cond := by
  unfold triggered
  split <;> rfl

theorem closed444_next (s : State) (c : State × PState × Bool) (t : State) (ups : List Upset) : (closed444 s c t ups).cond.next =
    if c.2.2 then (if c.2.1 = .tacet then some .tacet else if c.2.1 = t.cond.state then none else some c.2.1) else t.cond.next := by
  unfold closed444
  extract_lets _ a b d
  have acts : a.cond.next = t.cond.next ∧ a.cond.state = t.cond.state := by
    unfold a
    split
    · have h := filed_actVerdict t (appliedVerdict s)
      rw [← triggered_cond t (appliedVerdict s)]
      exact ⟨(congrArg (fun x => x.cond.next) h :), (congrArg (fun x => x.cond.state) h :)⟩
    · exact ⟨rfl, rfl⟩
  obtain ⟨next, state⟩ := acts
  show d.cond.next = _
  unfold d
  rw [setExposures_next]
  unfold b
  split
  · rw [noteChoice_next, state]
  · exact next

theorem conductorWork_next (s : State) (wake : Bool) (ups : List Upset) : (conductorWork s wake ups).cond.next =
    (let c := choose (settled (at444 s)) wake
    if c.2.2 then (if c.2.1 = .tacet then some .tacet else if c.2.1 = s.cond.state then none else some c.2.1) else s.cond.next) := by
  have filed := filed_recorded (at444 s) (choose (settled (at444 s)) wake)
  have chose : chosen444 (at444 s) wake = choosing (at444 s) (chosen444 (at444 s) wake) := chosen_chosen444 _ wake
  have next : (recorded (at444 s) (choose (settled (at444 s)) wake)).cond.next = s.cond.next :=
    (congrArg (fun x => x.cond.next) filed :).trans (congrArg (fun x => x.cond.next) chose :)
  have state : (recorded (at444 s) (choose (settled (at444 s)) wake)).cond.state = s.cond.state :=
    (congrArg (fun x => x.cond.state) filed :).trans (congrArg (fun x => x.cond.state) chose :)
  have closed := closed444_next (at444 s) (choose (settled (at444 s)) wake) (recorded (at444 s) (choose (settled (at444 s)) wake)) ups
  rw [next, state] at closed
  exact closed

/-! ### What the choice makes of the pins -/

theorem choose_pins (s : State) (wake : Bool) :
    (choose s wake).1.cond.present = s.cond.present ∧ (choose s wake).1.cond.gest = s.cond.gest :=
  ⟨(congrArg (fun x => x.cond.present) (choose_frame s wake) :), (congrArg (fun x => x.cond.gest) (choose_frame s wake) :)⟩

theorem settled_pins (s : State) : (settled s).cond = (touched444 s).cond := by
  unfold settled
  extract_lets t
  split <;> rfl

/-- A choice of Tacet takes the pins' Tacet values (R76). -/
theorem chosen444_tacet (s : State) (wake : Bool) (h : enters (choose (settled s) wake) = true) :
    (chosen444 s wake).cond.present = false ∧ (chosen444 s wake).cond.gest = 7 ∧ (chosen444 s wake).cond.touchN = true := by
  unfold chosen444
  rw [if_pos h]
  exact ⟨rfl, rfl, rfl⟩

/-- Any other choice, and none, leaves them as slot 444 has set them. -/
theorem chosen444_pins (s : State) (wake : Bool) (h : enters (choose (settled s) wake) = false) :
    (chosen444 s wake).cond.present = (pinned s).cond.present ∧ (chosen444 s wake).cond.gest = (pinned s).cond.gest := by
  unfold chosen444
  rw [if_neg (Bool.eq_false_iff.mp h)]
  obtain ⟨present, gest⟩ := choose_pins (settled s) wake
  rw [settled_pins] at present gest
  exact ⟨present, gest⟩

/-- The bits of the summary word that slot 444 clears: EVENT, WAKEG and LOST (R255). -/
theorem summary_cleared (x : BitVec 32) {b : Nat} (lo : 13 ≤ b) (hi : b ≤ 17) : (x &&& ~~~(0x3E000 : BitVec 32)).getLsbD b = false := by
  interval_cases b <;> simp

end Sys2Proof.Conductor
end

section
/-!
Slot 444 as a command, with and without errors in its reads, and the choice that it makes (O37).
-/
namespace Sys2Proof.ConductorSlot

open Sys2Proof.Machine Sys2Proof.Laws Sys2Proof.Stages Sys2Proof.Frames Sys2Proof.Slot444 Sys2Proof.Pins444 Sys2Proof.Conductor Sys2Proof.Safety

/-! ### What every slot 444 leaves -/

/-- What slot 444 of `s` leaves in `t`, whatever its reads find. -/
structure Conducted (s t : State) : Prop where
  due : t.metro.due = s.metro.due.filter (· ≠ .conductor)
  past : t.cond.past444 = true
  nvm : t.nvm = s.nvm
  cues : t.exec.cues = s.exec.cues
  slot : t.metro.slot = s.metro.slot
  bar : t.aon.bar = s.aon.bar
  state : t.cond.state = s.cond.state
  summary : t.touch.summary = s.touch.summary &&& ~~~(0x3E000 : BitVec 32)
  force : s.cond.force = true → t.cond.next = some .tacet ∧ t.cond.locked = true
  tacet : s.fermata = none → t.cond.next = some .tacet → t.cond.present = false ∧ t.cond.gest = 7 ∧ t.cond.touchN = true
  follower : s.fermata = none → s.follower = true → t.cond.present = false ∧ t.cond.gest = 7
  fermata : s.fermata.isSome → s.cond.force = false →
    t.cond.next = s.cond.next ∧ t.cond.present = s.cond.present ∧ t.cond.gest = s.cond.gest

/-- It is unmoved by errors in the reads of slot 444. -/
theorem Conducted.failing {s t u : State} {ws : List Nat} (h : Conducted (failingIn s ws) t) (e : Tripped (failingIn t s.nvm.failing) u) :
    Conducted s u where
  due := (congrArg (fun x => x.metro.due) e :).trans h.due
  past := (congrArg (fun x => x.cond.past444) e :).trans h.past
  nvm := (congrArg State.nvm e :).trans (congrArg (fun n => { n with failing := s.nvm.failing }) h.nvm)
  cues := (congrArg (fun x => x.exec.cues) e :).trans h.cues
  slot := (congrArg (fun x => x.metro.slot) e :).trans h.slot
  bar := (congrArg (fun x => x.aon.bar) e :).trans h.bar
  state := (congrArg (fun x => x.cond.state) e :).trans h.state
  summary := (congrArg (fun x => x.touch.summary) e :).trans h.summary
  force := by
    rw [show u.cond.next = t.cond.next from (congrArg (fun x => x.cond.next) e :), show u.cond.locked = t.cond.locked from (congrArg (fun x => x.cond.locked) e :)]
    exact h.force
  tacet := by
    rw [show u.cond = { t.cond with force := u.cond.force } from (congrArg State.cond e :)]
    exact h.tacet
  follower := by
    rw [show u.cond = { t.cond with force := u.cond.force } from (congrArg State.cond e :)]
    exact h.follower
  fermata := by
    rw [show u.cond = { t.cond with force := u.cond.force } from (congrArg State.cond e :)]
    exact h.fermata

section
variable (s : State) (wake : Bool) (ups : List Upset)

theorem conductorWork_cond : (conductorWork s wake ups).cond.present = (chosen444 (at444 s) wake).cond.present
    ∧ (conductorWork s wake ups).cond.gest = (chosen444 (at444 s) wake).cond.gest
    ∧ (conductorWork s wake ups).cond.touchN = (chosen444 (at444 s) wake).cond.touchN
    ∧ (conductorWork s wake ups).cond.locked = (chosen444 (at444 s) wake).cond.locked
    ∧ (conductorWork s wake ups).cond.rules = (chosen444 (at444 s) wake).cond.rules := by
  have frame := conductorWork_frame s wake ups
  exact ⟨(congrArg (fun x => x.cond.present) frame :), (congrArg (fun x => x.cond.gest) frame :), (congrArg (fun x => x.cond.touchN) frame :),
    (congrArg (fun x => x.cond.locked) frame :), (congrArg (fun x => x.cond.rules) frame :)⟩

/-- The summary word before the choice is the one that the choice leaves. -/
theorem chosen444_summary : (chosen444 s wake).touch.summary = s.touch.summary &&& ~~~(0x3E000 : BitVec 32) := by
  have first : (choose (settled s) wake).1.touch = (settled s).touch := (congrArg State.touch (choose_frame (settled s) wake) :)
  have second : (settled s).touch = (touched444 s).touch := by
    unfold settled
    extract_lets t
    split <;> rfl
  have last : (chosen444 s wake).touch = (choose (settled s) wake).1.touch := by
    unfold chosen444
    extract_lets c
    split <;> rfl
  have pins : (pinned s).touch = s.touch := (congrArg State.touch (pinned_frame s) :)
  rw [last, first, second, ← pins]
  rfl

theorem settled_fermata : (settled s).fermata = s.fermata := (congrArg State.fermata (show settled s = settling s (settled s) from settles_settled s) :)

theorem choose_chooses (live : s.fermata = none) : (choose s wake).2.2 = true := by
  cases force : s.cond.force with
  | false => rw [choose_live wake live force]
  | true => rw [choose_forced wake live force]

/-- Outside fermata the bar's choice is Tacet exactly where its Tacet values are taken. -/
theorem next_eq_tacet_iff (live : s.fermata = none) :
    (conductorWork s wake ups).cond.next = some .tacet ↔ enters (choose (settled (at444 s)) wake) = true := by
  have chooses : (choose (settled (at444 s)) wake).2.2 = true := choose_chooses _ wake ((settled_fermata _).trans live)
  have next := conductorWork_next s wake ups
  simp only [chooses, if_true] at next
  unfold enters
  rw [next, chooses, Bool.true_and, decide_eq_true_iff]
  by_cases tacet : (choose (settled (at444 s)) wake).2.1 = .tacet
  · simp [tacet]
  · rw [if_neg tacet]
    split
    · simp [tacet]
    · simp [tacet]

theorem pinned_live (live : s.fermata = none) : pinned s = applyPins s (verdictFresh s) (appliedVerdict s) s.touch.summary :=
  if_neg (by simp [live])

theorem conducted_conductorWork : Conducted s (conductorWork s wake ups) := by
  have frame := conductorWork_frame s wake ups
  have next := conductorWork_next s wake ups
  obtain ⟨present, gest, touchN, locked, _⟩ := conductorWork_cond s wake ups
  have settledIn : settled (at444 s) = settling (at444 s) (settled (at444 s)) := settles_settled _
  have fermataIs : (settled (at444 s)).fermata = s.fermata := (congrArg State.fermata settledIn :)
  have forceIs : (settled (at444 s)).cond.force = s.cond.force := (congrArg (fun x => x.cond.force) settledIn :)
  have nextIs : (settled (at444 s)).cond.next = s.cond.next := (congrArg (fun x => x.cond.next) settledIn :)
  refine ⟨(congrArg (fun x => x.metro.due) frame :), rfl, (congrArg State.nvm frame :), (congrArg (fun x => x.exec.cues) frame :),
    (congrArg (fun x => x.metro.slot) frame :), (congrArg (fun x => x.aon.bar) frame :), (congrArg (fun x => x.cond.state) frame :),
    (congrArg (fun x => x.touch.summary) frame :).trans (chosen444_summary _ wake), fun force => ?_, fun live tacet => ?_, fun live f => ?_,
    fun held free => ?_⟩
  · have lock : (chosen444 (at444 s) wake).cond.locked = (choose (settled (at444 s)) wake).1.cond.locked := by
      unfold chosen444
      extract_lets c
      split <;> rfl
    rw [next, locked, lock]
    cases e : s.fermata.isSome with
    | false =>
      rw [choose_forced wake (fermataIs.trans (Option.not_isSome_iff_eq_none.mp (by simp [e]))) (forceIs.trans force)]
      exact ⟨rfl, rfl⟩
    | true =>
      rw [choose_fermata_forced wake (by rw [fermataIs, e]) (forceIs.trans force), nextIs]
      refine ⟨?_, rfl⟩
      by_cases k : s.cond.next = some .tacet
      · simp [k]
      · simp [k]
  · rw [present, gest, touchN]
    exact chosen444_tacet _ wake ((next_eq_tacet_iff s wake ups live).mp tacet)
  · rw [present, gest]
    cases e : enters (choose (settled (at444 s)) wake) with
    | true =>
      obtain ⟨p, g, _⟩ := chosen444_tacet _ wake e
      exact ⟨p, g⟩
    | false =>
      obtain ⟨p, g⟩ := chosen444_pins _ wake e
      have rest := applyPins_pins (at444 s) (appliedVerdict (at444 s)) (at444 s).touch.summary
      rw [if_pos (show (at444 s).follower = true from f)] at rest
      rw [p, g, pinned_live (at444 s) live]
      exact Prod.mk.inj rest
  · have choice := choose_fermata wake (s := settled (at444 s)) (by rw [fermataIs, held]) (forceIs.trans free)
    have none : enters (choose (settled (at444 s)) wake) = false := by
      rw [choice]
      rfl
    obtain ⟨p, g⟩ := chosen444_pins _ wake none
    rw [next, present, gest, choice, p, g]
    refine ⟨rfl, ?_⟩
    have stale : pinned (at444 s) = countStale (at444 s) := if_pos held
    rw [stale]
    exact ⟨rfl, rfl⟩

/-! ### The choice -/

theorem settled_warnCap (live : s.fermata = none) : (settled s).aon.warnCap = (s.aon.warnCap || s.aon.capNext) := by
  have aon : (touched444 s).aon = s.aon := (congrArg State.aon (pinned_frame s) :)
  unfold settled
  extract_lets t
  have starts : capStarts s = s.aon.capNext := by
    unfold capStarts
    rw [live, aon]
    exact Bool.and_true _
  cases e : s.aon.capNext with
  | true =>
    rw [if_pos (starts.trans e)]
    exact (Bool.or_true _).symm
  | false =>
    rw [if_neg (by simp [starts, e]), Bool.or_false]
    exact congrArg Aon.warnCap aon

/-- What the choice reads is what `s` holds, but for the pins and the cap that slot 444 has just set. -/
theorem settled_reads : SameScore s (settled s) ∧ (settled s).duet = s.duet ∧ (settled s).boot = s.boot ∧ (settled s).aon.bar = s.aon.bar
    ∧ (settled s).thermal = s.thermal ∧ (settled s).inj = s.inj ∧ (settled s).cond.state = s.cond.state ∧ (settled s).cond.rules = s.cond.rules := by
  have e : settled s = settling s (settled s) := settles_settled s
  exact ⟨⟨(congrArg State.nvm e :), (congrArg (fun x => x.boot.straps) e :)⟩, (congrArg State.duet e :), (congrArg State.boot e :),
    (congrArg (fun x => x.aon.bar) e :), (congrArg State.thermal e :), (congrArg State.inj e :), (congrArg (fun x => x.cond.state) e :),
    (congrArg (fun x => x.cond.rules) e :)⟩

theorem settled_follower : (settled s).follower = s.follower := by
  obtain ⟨_, duet, boot, _⟩ := settled_reads s
  unfold State.follower State.role
  rw [duet, boot]

theorem capNum_settled (live : s.fermata = none) : capNum (settled s) =
    if s.thermal.throttle || s.inject 4 || s.aon.warnCap || s.aon.capNext then min (maxState s) 2 else maxState s := by
  obtain ⟨score, _, _, _, thermal, inj, _⟩ := settled_reads s
  unfold capNum State.inject
  rw [settled_warnCap s live, thermal, inj, score.maxState, Bool.or_assoc _ s.aon.warnCap]

theorem wakeLevel_settled : wakeLevel (settled s) wake = wakeLevel s wake := by
  obtain ⟨_, duet, _, bar, _⟩ := settled_reads s
  unfold wakeLevel
  rw [duet, bar]

theorem chooseState_settled (counts : List Nat) : chooseState (settled s) counts = chooseState s counts := by
  obtain ⟨score, _, _, _, _, _, state, _⟩ := settled_reads s
  have st : (settled s).st = s.st := congrArg PState.num state
  unfold chooseState
  rw [st, state, score.nRule, score.stateRule]

theorem settled_cond_pins : (settled s).cond.present = (pinned s).cond.present ∧ (settled s).cond.gest = (pinned s).cond.gest := by
  rw [settled_pins]
  exact ⟨rfl, rfl⟩

/-- The counts of slot 444, of each rule by its own (R314). -/
theorem countRules_settled {i : Nat} (h : i < nRule s) : let counts := countRules (settled s) (wakeLevel s wake)
    (RuleHolds (stateRule s i) (pinned s).cond.present (pinned s).cond.gest (wakeLevel s wake) → counts.getD i 0 = min (s.cond.rules.getD i 0 + 1) 2047)
      ∧ (¬RuleHolds (stateRule s i) (pinned s).cond.present (pinned s).cond.gest (wakeLevel s wake) → counts.getD i 0 = 0) := by
  obtain ⟨score, _, _, _, _, _, _, rules⟩ := settled_reads s
  obtain ⟨present, gest⟩ := settled_cond_pins s
  have count := countRules_getD (settled s) (wakeLevel s wake) (i := i) (by rwa [score.nRule])
  rw [score.stateRule, present, gest, rules] at count
  intro counts
  rw [← ruleHolds_iff]
  exact ⟨fun k => count.trans (if_pos k), fun k => count.trans (if_neg k)⟩

/-- Floor and caps leave the NOTICE, the leader's state, or the state table's. -/
theorem based_settled : (s.duet.noticed = true → based (settled s) wake = .tacet)
    ∧ (s.duet.noticed = false → s.follower = true → based (settled s) wake = s.duet.pState.getD s.cond.state)
    ∧ (s.duet.noticed = false → s.follower = false →
      based (settled s) wake = chooseState s (countRules (settled s) (wakeLevel s wake))) := by
  obtain ⟨_, duet, _, _, _, _, state, _⟩ := settled_reads s
  unfold based
  rw [settled_follower, wakeLevel_settled, chooseState_settled, duet, state]
  exact ⟨fun n => if_pos n, fun n f => (if_neg (by simp [n])).trans (if_pos f), fun n f => (if_neg (by simp [n])).trans (if_neg (by simp [f]))⟩

theorem pins_pinned (live : s.fermata = none) : Pins s (pinned (at444 s)).cond.present (pinned (at444 s)).cond.gest := by
  let u := at444 s
  have raw : rawPins u (appliedVerdict u) = rawPins s (appliedVerdict s) := rfl
  have woken (q) : wakePins u u.touch.summary q = wakePins s s.touch.summary q := rfl
  have made := applyPins_pins u (appliedVerdict u) u.touch.summary
  rw [raw, woken] at made
  rw [pinned_live u live]
  exact pins_of_eq made

theorem chooses_conductorWork (live : s.fermata = none) (free : s.cond.force = false) : Chooses s (conductorWork s wake ups) wake := by
  let u := at444 s
  let x := settled u
  let high := wakeLevel s wake
  have settledIn : x = settling u x := settles_settled u
  have choice : choose x wake = (counted x wake, effective (counted x wake) (wakeLevel x wake) (based x wake), true) :=
    choose_live wake ((settled_fermata u).trans live) ((congrArg (fun x => x.cond.force) settledIn :).trans free)
  have pins : Pins s (pinned u).cond.present (pinned u).cond.gest := pins_pinned s live
  have rules : s.follower = false → (conductorWork s wake ups).cond.rules = countRules x high := by
    intro f
    obtain ⟨_, _, _, _, kept⟩ := conductorWork_cond s wake ups
    have first : (chosen444 u wake).cond.rules = (choose x wake).1.cond.rules := by
      unfold chosen444
      extract_lets c
      split <;> rfl
    rw [kept, first, choice]
    show (if x.follower then x.cond.rules else countRules x (wakeLevel x wake)) = _
    rw [settled_follower u, if_neg (by simp [show u.follower = false from f]), wakeLevel_settled u]
    rfl
  have next : (conductorWork s wake ups).cond.next = (let n := effective (counted x wake) high (based x wake)
      if n = .tacet then some .tacet else if n = s.cond.state then none else some n) := by
    have next := conductorWork_next s wake ups
    simp only [show choose (settled (at444 s)) wake = _ from choice, if_true] at next
    rw [show wakeLevel x wake = high from wakeLevel_settled u wake] at next
    exact next
  have cap : capNum (counted x wake) = _ := capNum_settled u live
  rw [effective_eq, cap] at next
  obtain ⟨notice, leader, table⟩ := based_settled u wake
  obtain ⟨first, stays⟩ := chooseState_spec s (countRules x high)
  refine ⟨_, _, countRules x high, based x wake, high, pins, wakeLevel_iff s wake, fun i h => countRules_settled u wake h, rules, notice, leader,
    fun n f => ?_, next⟩
  rw [show based x wake = chooseState s (countRules x high) from table n f]
  exact ⟨first, stays⟩

/-! ### The command -/

theorem exec_conductorSlot444 (due : Due.conductor ∈ s.metro.due) :
    exec (.conductorSlot444 wake ups) s = .next (withRomErrors s ups fun s => conductorWork s wake ups) :=
  if_neg (by simp [due])

theorem conducted_withRomErrors : Conducted s (withRomErrors s ups fun s => conductorWork s wake ups) := by
  by_cases reads : romFailures ups = []
  · rw [withRomErrors_none s ups _ reads]
    exact conducted_conductorWork s wake ups
  · exact (conducted_conductorWork _ wake ups).failing (tripped_withRomErrors s ups _ reads)

end

/-- Settles O37: slot 444 has one frame for all that it changes; its choice is read off the state that its pins and its cap leave. -/
theorem conductorSlot : Obligations.ConductorSlot := by
  intro s wake ups due
  have c := conducted_withRomErrors s wake ups
  refine ⟨_, exec_conductorSlot444 s wake ups due, by simp [c.due], c.past, c.nvm, c.cues, c.slot, c.bar, c.state, fun b lo hi => ?_, c.force,
    fun live => ⟨fun free reads => ?_, c.tacet live, c.follower live⟩, c.fermata⟩
  · rw [c.summary]
    exact summary_cleared _ lo hi
  · rw [withRomErrors_none s ups _ reads]
    exact chooses_conductorWork s wake ups live free

end Sys2Proof.ConductorSlot
end

section
/-!
The verdict latch (R317) and the leader's fusion of two verdicts (R300, R301, Table 15-5).
-/
namespace Sys2Proof.Latch

open Sys2Proof.Machine Sys2Proof.Laws Sys2Proof.Frames Sys2Proof.Safety

/-! ### Reads without new errors -/

theorem eccTrip_ram (s : State) (d addr : Nat) : (eccTrip s d addr).ram = s.ram := by
  unfold eccTrip
  extract_lets t
  split <;> rfl

theorem countInjected6_ram (s : State) (n : Nat) : (countInjected6 s n).ram = s.ram := by
  unfold countInjected6
  extract_lets n t x
  split
  · split <;> rfl
  · rfl

theorem foldl_ram {α : Type} (f : State → α → State) (keeps : ∀ s a, (f s a).ram = s.ram) (l : List α) (s : State) : (l.foldl f s).ram = s.ram := by
  induction l generalizing s with
  | nil => rfl
  | cons a l ih => exact (ih _).trans (keeps s a)

/-- A read that finds no new error leaves memory as it is. -/
theorem readErrors_ram (s : State) (ws : List Nat) : (readErrors s ws []).ram = s.ram := by
  unfold readErrors
  extract_lets _ old t
  split
  · rfl
  · exact (foldl_ram _ (fun s w => eccTrip_ram s 7 _) old t).trans (countInjected6_ram s _)

/-! ### The latch -/

/-- The latch of `t` is the verdict vector of `s`, and counts for the bar when it came in time and whole. -/
def Copied (s t : State) : Prop :=
  (∀ i : Fin 64, t.cond.latch[i] = s.ram.read (vvAddr s + i.val))
    ∧ (t.cond.taken = true ↔ s.metro.slot < 444 ∧ ∀ k, k < 8 → vvAddr s / 8 + k ∉ s.ram.bad)

theorem copied_latchVerdict (s : State) : Copied s (latchVerdict s []) := by
  let ws := (List.range 8).map (vvAddr s / 8 + ·)
  have ram : (readErrors s ws []).ram = s.ram := readErrors_ram s ws
  have slot : (readErrors s ws []).metro.slot = s.metro.slot :=
    (congrArg (fun x => x.metro.slot) (show _ = retripped s _ from tripped_readErrors s ws []) :)
  have latch : (latchVerdict s []).cond.latch = Vector.ofFn fun i : Fin 64 => s.ram.read (vvAddr s + i.val) :=
    (congrArg (fun r : Ram => Vector.ofFn fun i : Fin 64 => r.read (vvAddr s + i.val)) ram :)
  have taken : (latchVerdict s []).cond.taken = (decide (s.metro.slot < 444) && !ws.any fun w => s.ram.bad.contains w) := by
    rw [← ram, ← slot]
    rfl
  refine ⟨fun i => ?_, ?_⟩
  · rw [latch]
    simp
  · rw [taken]
    simp [ws]

/-- The post takes the verdict cue from below its target to it or beyond. -/
def Reached (s : State) (cue inc : Nat) : Prop :=
  cue = vCue s ∧ ((s.exec.cues[cue]?).getD 0).toNat < vTgt s ∧ vTgt s ≤ min (((s.exec.cues[cue]?).getD 0).toNat + inc) 65535

/-- The cues of `s` after a post. -/
def posted (s : State) (cue inc : Nat) : State :=
  { s with exec := { s.exec with
      cues := s.exec.cues.setIfInBounds cue (BitVec.ofNat 16 (satAdd 16 ((s.exec.cues[cue]?).getD 0).toNat inc)) } }

theorem post_of_reached {s : State} {cue inc : Nat} (h : 0 < inc) (r : Reached s cue inc) (ups : List Upset) :
    post s cue inc ups = latchVerdict (posted s cue inc) ups := by
  obtain ⟨own, below, beyond⟩ := r
  unfold post
  rw [if_neg (by omega)]
  refine if_pos ?_
  simp only [Bool.and_eq_true, decide_eq_true_eq]
  exact ⟨⟨own, below⟩, beyond⟩

theorem post_of_not_reached {s : State} {cue inc : Nat} (h : 0 < inc) (r : ¬Reached s cue inc) (ups : List Upset) :
    post s cue inc ups = posted s cue inc := by
  unfold post
  rw [if_neg (by omega)]
  refine if_neg fun k => r ?_
  simp only [Bool.and_eq_true, decide_eq_true_eq] at k
  obtain ⟨⟨own, below⟩, beyond⟩ := k
  exact ⟨own, below, beyond⟩

/-- A post latches the verdict exactly where it reaches the verdict cue's target. -/
theorem latch_post {s : State} {cue inc : Nat} (h : 0 < inc) :
    (Reached s cue inc → Copied s (post s cue inc [])) ∧ (¬Reached s cue inc → (post s cue inc []).cond = s.cond) := by
  refine ⟨fun r => ?_, fun r => ?_⟩
  · rw [post_of_reached h r]
    exact copied_latchVerdict (posted s cue inc)
  · rw [post_of_not_reached h r]
    rfl

theorem exec_post {s : State} {r : List Entry} {k : Nat} {cue : BitVec 7} {inc : BitVec 9}
    (head : s.metro.issue = ⟨k, 0, BitVec.ofNat 16 (cue.toNat + 128 * inc.toNat)⟩ :: r) (due : s.metro.due = []) :
    exec (.post cue inc []) s = .next (post (popEntry s) cue.toNat inc.toNat []) := by
  refine if_pos ?_
  unfold entryIs
  rw [head, due]
  simp

theorem verdictLatch : Part.VerdictLatch := by
  refine ⟨fun s cue inc _ h => latch_post h, fun s r k cue inc head due h => ?_⟩
  exact ⟨_, exec_post head due, latch_post (s := popEntry s) h⟩

/-! ### Fusion -/

section
variable {α : Type} {n m : Nat} (f : Nat → Nat) (g : Nat → α)

/-- Writes to other places leave a place as it is. -/
theorem foldl_set_other (v : Vector α m) {e : Nat} (h : ∀ k, k < n → f k ≠ e) :
    ((List.range n).foldl (fun v k => v.setIfInBounds (f k) (g k)) v)[e]? = v[e]? := by
  induction n with
  | zero => rfl
  | succ n ih =>
    rw [List.range_succ, List.foldl_append, List.foldl_cons, List.foldl_nil, Vector.getElem?_setIfInBounds_ne (h n (Nat.lt_succ_self n))]
    exact ih fun k lt => h k (Nat.lt_succ_of_lt lt)

/-- The last write to a place stands. -/
theorem foldl_set_last (v : Vector α m) {e k : Nat} (lt : k < n) (own : f k = e) (last : ∀ j, k < j → j < n → f j ≠ e) (inside : e < m) :
    ((List.range n).foldl (fun v k => v.setIfInBounds (f k) (g k)) v)[e]? = some (g k) := by
  induction n with
  | zero => omega
  | succ n ih =>
    rw [List.range_succ, List.foldl_append, List.foldl_cons, List.foldl_nil]
    by_cases at_end : k = n
    · subst at_end
      rw [own, Vector.getElem?_setIfInBounds_self_of_lt inside]
    · rw [Vector.getElem?_setIfInBounds_ne (last n (by omega) (Nat.lt_succ_self n))]
      exact ih (by omega) fun j a b => last j a (Nat.lt_succ_of_lt b)

end

/-- The partner's input of a fusion rule. -/
def partnerElem (p : PartnerVerdict) (i : Nat) : Nat :=
  if i < 6 then ((p.elems[i]?).getD 0).toNat else if i = 6 then (if p.present then 1 else 0) else p.gest.toNat

/-- What fusion rule `r` writes. -/
def fusedValue (s : State) (own : Vector Byte 64) (r : Nat) : Nat :=
  (partnerInput s).elim (elem own (field r 5 5)) fun p => fuseOp (field r 13 3) (elem own (field r 5 5)) (partnerElem p (field r 10 3))

theorem fuse_eq (s : State) (own : Vector Byte 64) (h : secLen s 9 ≠ 0) : fuse s own =
    (List.range (secU s 9 6 1)).foldl (fun v k => v.setIfInBounds (field (secU s 9 (8 + 4 * k) 4) 0 5)
      (BitVec.ofNat 8 (fusedValue s own (secU s 9 (8 + 4 * k) 4)))) own := by
  unfold fuse
  rw [if_neg h]
  refine congrArg (fun f => (List.range (secU s 9 6 1)).foldl f own) (funext fun v => funext fun k => ?_)
  unfold fusedValue
  cases partnerInput s <;> rfl

theorem fusion : Part.Fusion := by
  refine ⟨fun s alone => ?_, fun s e leads some inside => ?_⟩
  · unfold appliedVerdict
    split
    · rcases alone with follows | none
      · simp_all
      · unfold fuse
        rw [if_pos none]
        rfl
    · rfl
  · have fused : appliedVerdict s = fuse s s.cond.latch := if_pos leads
    rw [fused, fuse_eq s _ some]
    refine ⟨foldl_set_other _ _ _, fun k lt own last => ?_⟩
    rw [foldl_set_last _ _ _ lt own last inside]
    refine congrArg (fun x => Option.some (BitVec.ofNat 8 x)) ?_
    unfold fusedValue partnerInput
    have small : field (secU s 9 (8 + 4 * k) 4) 10 3 < 8 := Nat.mod_lt _ (by decide)
    cases s.duet.partner.find? fun p => p.bar = s.aon.bar - 1 with
    | none => rfl
    | some p =>
      generalize field (secU s 9 (8 + 4 * k) 4) 10 3 = i at small
      interval_cases i <;> rfl

end Sys2Proof.Latch
end

section
/-!
What slot 444 makes of a bar's verdict, from the count of bars without one to what a fresh one starts (O38).
-/
namespace Sys2Proof.FreshVerdict

open Sys2Proof.Machine Sys2Proof.Laws Sys2Proof.Stages Sys2Proof.Frames Sys2Proof.Slot444 Sys2Proof.Pins444 Sys2Proof.Conductor
open Sys2Proof.ConductorSlot Sys2Proof.Safety

/-! ### Pins and counts -/

section
variable (s : State) (wake : Bool) (ups : List Upset)

theorem conductorWork_pins (live : s.fermata = none) (stays : (conductorWork s wake ups).cond.next ≠ some .tacet) :
    Pins s (conductorWork s wake ups).cond.present (conductorWork s wake ups).cond.gest := by
  have choice : enters (choose (settled (at444 s)) wake) = false :=
    Bool.eq_false_iff.mpr fun k => stays ((next_eq_tacet_iff s wake ups live).mpr k)
  obtain ⟨present, gest, _⟩ := conductorWork_cond s wake ups
  obtain ⟨p, g⟩ := chosen444_pins (at444 s) wake choice
  rw [present, gest, p, g]
  exact pins_pinned s live

theorem chosen444_counts : (chosen444 s wake).cond.stale = (pinned s).cond.stale ∧ (chosen444 s wake).cond.hold = (pinned s).cond.hold := by
  have settles : (settled s).cond = (touched444 s).cond := settled_pins s
  have chose := choose_frame (settled s) wake
  have tacet (t : State) : (tacetValues t).cond.stale = t.cond.stale ∧ (tacetValues t).cond.hold = t.cond.hold := ⟨rfl, rfl⟩
  have last : (chosen444 s wake).cond.stale = (choose (settled s) wake).1.cond.stale
      ∧ (chosen444 s wake).cond.hold = (choose (settled s) wake).1.cond.hold := by
    unfold chosen444
    extract_lets c
    split
    · exact tacet _
    · exact ⟨rfl, rfl⟩
  exact ⟨last.1.trans ((congrArg (fun x => x.cond.stale) chose :).trans (congrArg Conductor.stale settles :)),
    last.2.trans ((congrArg (fun x => x.cond.hold) chose :).trans (congrArg Conductor.hold settles :))⟩

theorem verdictFresh_fermata (held : s.fermata.isSome) : verdictFresh s = false := by
  refine (verdictFresh_eq_false s).mpr fun fresh => ?_
  rw [fresh.1.live] at held
  exact Bool.false_ne_true held

theorem pinned_counts : (pinned s).cond.stale = (if verdictFresh s then 0 else (countStale s).cond.stale)
    ∧ (pinned s).cond.hold = (if verdictFresh s then 0 else (countStale s).cond.hold) := by
  cases held : s.fermata.isSome with
  | true =>
    rw [verdictFresh_fermata s held, show pinned s = countStale s from if_pos held]
    exact ⟨rfl, rfl⟩
  | false =>
    rw [show pinned s = _ from if_neg (Bool.eq_false_iff.mp held)]
    exact applyPins_counts s _ _ _

/-- The counts of bars without a fresh verdict are those that the pins of slot 444 leave. -/
theorem conductorWork_counts :
    (conductorWork s wake ups).cond.stale = (if verdictFresh s then 0 else (countStale s).cond.stale)
      ∧ (conductorWork s wake ups).cond.hold = (if verdictFresh s then 0 else (countStale s).cond.hold) := by
  have frame := conductorWork_frame s wake ups
  obtain ⟨chosenStale, chosenHold⟩ := chosen444_counts (at444 s) wake
  obtain ⟨stale, hold⟩ := pinned_counts (at444 s)
  exact ⟨(congrArg (fun x => x.cond.stale) frame :).trans (chosenStale.trans stale), (congrArg (fun x => x.cond.hold) frame :).trans (chosenHold.trans hold)⟩

end

theorem pinsAt444 : Part.PinsAt444 := by
  intro s wake ups due reads
  obtain ⟨stale, hold⟩ := conductorWork_counts s wake ups
  refine ⟨conductorWork s wake ups, ?_, conductorWork_pins s wake ups, fun fresh => ?_, fun old => ?_⟩
  · rw [exec_conductorSlot444 s wake ups due, withRomErrors_none s ups _ reads]
  · rw [stale, hold, (verdictFresh_iff s).mpr fresh]
    exact ⟨rfl, rfl⟩
  · rw [stale, hold, (verdictFresh_eq_false s).mpr old]
    exact counted_countStale s

/-! ### What a fresh verdict starts -/

theorem pushQ3_q3 (s : State) (type : BitVec 4) (body : List Byte) : (pushQ3 s type body).duet.q3 =
    if s.duet.q3.length < 16 then s.duet.q3 ++ [⟨type, Vector.ofFn fun k : Fin 12 => body.getD k.val 0, false, s.port.stamp⟩] else s.duet.q3 := by
  unfold pushQ3
  split
  · rfl
  · rw [countDrop_changes]

/-- A frame is in a queue that has room after it. -/
theorem mem_pushQ3 (s : State) (type : BitVec 4) (body : List Byte) (room : (pushQ3 s type body).duet.q3.length < 16) :
    ⟨type, Vector.ofFn fun k : Fin 12 => body.getD k.val 0, false, s.port.stamp⟩ ∈ (pushQ3 s type body).duet.q3 := by
  rw [pushQ3_q3] at *
  split at room
  · rename_i h
    rw [if_pos h]
    simp
  · contradiction

theorem swapAction_q3 (s : State) (v : Vector Byte 64) : ∃ l, (swapAction s v).duet.q3 = s.duet.q3 ++ l := by
  unfold swapAction
  split
  · split
    · rw [pushQ3_q3]
      split
      · exact ⟨_, rfl⟩
      · exact ⟨[], (List.append_nil _).symm⟩
    · exact ⟨[], (List.append_nil _).symm⟩
  · exact ⟨[], (List.append_nil _).symm⟩

/-- A message frame as it enters the queue of `s`. -/
def message (s : State) (type : BitVec 4) (body : List Byte) : Msg := ⟨type, Vector.ofFn fun k : Fin 12 => body.getD k.val 0, false, s.port.stamp⟩

section
variable (s : State) (v : Vector Byte 64)

theorem triggered_frame : triggered s v = { s with accent := (triggered s v).accent } := by
  unfold triggered
  split <;> rfl

theorem triggered_accent : (triggered s v).accent =
    if 1 ≤ blockElem s v 3 ∧ blockElem s v 3 ≤ nEff s then triggerEffect s.accent (blockElem s v 3) else s.accent := by
  unfold triggered
  simp only [Bool.and_eq_true, decide_eq_true_eq]
  split <;> rfl

theorem triggered_score : SameScore s (triggered s v) := by
  rw [triggered_frame]
  exact ⟨rfl, rfl⟩

theorem blockElem_triggered (k : Nat) : blockElem (triggered s v) v k = blockElem s v k :=
  congrArg (fun f => f v k) ((triggered_score s v).blockElem (congrArg (fun c => c.state.num) (triggered_cond s v)))

/-- A fresh verdict's WAKE frame is in a queue that has room after its acts. -/
theorem actVerdict_wake (named : blockElem s v 4 ≠ 0) (up : s.duet.link = .up) (room : (actVerdict s v).duet.q3.length < 16) :
    message s 6 (leBytes 2 s.aon.bar.toNat ++ [byte (blockElem s v 4)]) ∈ (actVerdict s v).duet.q3 := by
  rw [actVerdict_eq] at *
  obtain ⟨l, more⟩ := swapAction_q3 (wakeAction (triggered s v) v) v
  have frame := triggered_frame s v
  have sends : wakeAction (triggered s v) v = pushQ3 (triggered s v) 6 (leBytes 2 s.aon.bar.toNat ++ [byte (blockElem s v 4)]) := by
    unfold wakeAction
    rw [blockElem_triggered, if_pos (by rw [frame]; simp [named, up]), show (triggered s v).aon = s.aon from (congrArg State.aon frame :)]
  rw [more, List.length_append] at room
  rw [sends] at more room
  have sent := mem_pushQ3 (triggered s v) 6 (leBytes 2 s.aon.bar.toNat ++ [byte (blockElem s v 4)]) (by omega)
  rw [sends, more]
  refine List.mem_append_left _ ?_
  rw [show (triggered s v).port = s.port from (congrArg State.port frame :)] at sent
  exact sent

/-- A fresh verdict's swap request is held by the module that decides, sent by the other. -/
theorem actVerdict_swap (named : blockElem s v 5 ≠ 0) (up : s.duet.link = .up) (no : s.duet.handover = false) (free : s.duet.commit = none) :
    (s.role = false → (actVerdict s v).duet.held = true)
      ∧ (s.role = true → (actVerdict s v).duet.q3.length < 16 → message s 7 [byte s.duet.epoch.toNat] ∈ (actVerdict s v).duet.q3) := by
  rw [actVerdict_eq]
  let y := wakeAction (triggered s v) v
  have filed : y = refiled (triggered s v) y := filed_wakeAction (triggered s v) v
  rw [triggered_frame] at filed
  have block : blockElem y v 5 = blockElem s v 5 :=
    congrArg (fun f => f v 5) (SameScore.blockElem ⟨(congrArg State.nvm filed :), (congrArg (fun x => x.boot.straps) filed :)⟩
      (congrArg (fun x => x.st) filed :))
  have acts : swapAction y v = if y.role then pushQ3 y 7 [byte y.duet.epoch.toNat] else { y with duet := { y.duet with held := true } } := by
    unfold swapAction
    have link : y.duet.link = s.duet.link := (congrArg (fun x => x.duet.link) filed :)
    have handover : y.duet.handover = s.duet.handover := (congrArg (fun x => x.duet.handover) filed :)
    have commit : y.duet.commit = s.duet.commit := (congrArg (fun x => x.duet.commit) filed :)
    exact if_pos (by simp [block, link, handover, commit, named, up, no, free])
  have role : y.role = s.role := (congrArg State.role filed :)
  have epoch : y.duet.epoch = s.duet.epoch := (congrArg (fun x => x.duet.epoch) filed :)
  have stamp : y.port.stamp = s.port.stamp := (congrArg (fun x => x.port.stamp) filed :)
  rw [acts, role]
  refine ⟨fun r => by rw [if_neg (by simp [r])], fun r => ?_⟩
  rw [if_pos r, epoch]
  intro room
  have sent := mem_pushQ3 y 7 [byte s.duet.epoch.toNat] room
  rw [stamp] at sent
  exact sent

end

/-! ### The acts of slot 444 -/

theorem setExposures_duet (s : State) (st : Nat) (ups : List Upset) :
    (setExposures s st ups).duet = s.duet ∧ (setExposures s st ups).accent = s.accent := by
  unfold setExposures
  extract_lets asks t
  have read : Tripped s t := .ite (tripped_readErrors s _ _) (.refl s)
  exact ⟨(congrArg State.duet read :), (congrArg State.accent read :)⟩

theorem noteChoice_duet (s : State) (chosen : PState) : (noteChoice s chosen).duet = s.duet := by
  unfold noteChoice
  split
  · rfl
  · split <;> rfl

theorem noteChoice_accent (s : State) (chosen : PState) (h : chosen ≠ .tacet) : (noteChoice s chosen).accent = s.accent := by
  unfold noteChoice
  rw [if_neg h]
  split <;> rfl

/-- Slot 444 leaves link and effect as the acts of a fresh verdict leave them, but for the brake of a Tacet that is chosen. -/
theorem closed444_acts (s : State) (c : State × PState × Bool) (t : State) (ups : List Upset) (fresh : verdictFresh s = true) :
    (closed444 s c t ups).duet = (actVerdict t (appliedVerdict s)).duet
      ∧ (enters c = false → (closed444 s c t ups).accent = (actVerdict t (appliedVerdict s)).accent) := by
  unfold closed444
  rw [if_pos fresh]
  extract_lets _ a b
  obtain ⟨duet, accent⟩ := setExposures_duet b c.2.1.num ups
  refine ⟨duet.trans ?_, fun stays => accent.trans ?_⟩
  · unfold b
    split
    · exact noteChoice_duet _ _
    · rfl
  · unfold b
    unfold enters at stays
    split
    · rename_i chooses
      rw [chooses, Bool.true_and, decide_eq_false_iff_not] at stays
      exact noteChoice_accent _ _ stays
    · rfl

theorem named_lt (s : State) (v : Vector Byte 64) (k : Nat) : named s v k < 256 := by
  unfold named
  split
  · exact BitVec.isLt _
  · decide

theorem wake_body (s : State) (bar : BitVec 16) {h : Nat} (small : h < 256) :
    let m := message s 6 (leBytes 2 bar.toNat ++ [byte h])
    (m.body[0]).toNat + 256 * (m.body[1]).toNat = bar.toNat ∧ (m.body[2]).toNat = h := by
  have wide : bar.toNat < 65536 := bar.isLt
  simp [message, leBytes, byte]
  omega

theorem swap_body (s : State) (epoch : BitVec 4) : ((message s 7 [byte epoch.toNat]).body[0]).toNat = epoch.toNat := by
  have small : epoch.toNat < 16 := epoch.isLt
  simp [message, byte]
  omega

theorem freshActs : Part.FreshActs := by
  intro s wake ups due reads fresh e h
  let u := at444 s
  let c := choose (settled u) wake
  let r := recorded u c
  let v := appliedVerdict s
  have isFresh : verdictFresh u = true := (verdictFresh_iff s).mpr fresh
  have filed : r = refiled (choosing u (chosen444 u wake)) r := by
    have first : chosen444 u wake = choosing u (chosen444 u wake) := chosen_chosen444 u wake
    rw [← first]
    exact filed_recorded u c
  have score : SameScore s r := ⟨(congrArg State.nvm filed :), (congrArg (fun x => x.boot.straps) filed :)⟩
  have block (k : Nat) : blockElem r v k = named s v k := congrArg (fun f => f v k) (score.blockElem (congrArg (fun x => x.st) filed :))
  have link : r.duet.link = s.duet.link := (congrArg (fun x => x.duet.link) filed :)
  obtain ⟨duet, accent⟩ : (conductorWork s wake ups).duet = (actVerdict r v).duet
      ∧ (enters c = false → (conductorWork s wake ups).accent = (actVerdict r v).accent) := closed444_acts u c r ups isFresh
  refine ⟨conductorWork s wake ups, ?_, fun stays => ?_, fun some up room => ?_, fun some up no free => ?_⟩
  · rw [exec_conductorSlot444 s wake ups due, withRomErrors_none s ups _ reads]
  · have choice : enters c = false := Bool.eq_false_iff.mpr fun k => stays ((next_eq_tacet_iff s wake ups fresh.1.live).mpr k)
    have acts : (actVerdict r v).accent = (triggered r v).accent := (congrArg State.accent (show _ = refiled _ _ from filed_actVerdict r v) :)
    rw [accent choice, acts, triggered_accent, block, score.nEff, show r.accent = s.accent from (congrArg State.accent filed :)]
    unfold triggerEffect
    rfl
  · have sent := actVerdict_wake r v (by rwa [block]) (link.trans up) (by rwa [← duet])
    rw [block, ← duet, show r.aon.bar = s.aon.bar from (congrArg (fun x => x.aon.bar) filed :)] at sent
    obtain ⟨bar, hold⟩ := wake_body r s.aon.bar (named_lt s v 4)
    exact ⟨_, sent, rfl, rfl, bar, hold⟩
  · obtain ⟨held, sent⟩ := actVerdict_swap r v (by rwa [block]) (link.trans up) ((congrArg (fun x => x.duet.handover) filed :).trans no)
      ((congrArg (fun x => x.duet.commit) filed :).trans free)
    rw [show r.role = s.role from (congrArg State.role filed :), ← duet] at held sent
    rw [show r.duet.epoch = s.duet.epoch from (congrArg (fun x => x.duet.epoch) filed :)] at sent
    exact ⟨held, fun role room => ⟨_, sent role room, rfl, rfl, swap_body r s.duet.epoch⟩⟩

/-- Settles O38: the latch and the fusion are functions of their own; slot 444 acts on the state that its records leave, which differs from `s` in no
field that a verdict's acts read. -/
theorem freshVerdict : Obligations.FreshVerdict := ⟨Latch.verdictLatch, Latch.fusion, pinsAt444, freshActs⟩

end Sys2Proof.FreshVerdict
end

section
/-!
SUPPORT. A bar start in stages, and the frames of its stages, equations of states: a new state's slot-0 work changes supplies, planes and the ramp; what
follows the codes changes the link, the planes, the records and what the bar is marked with.
-/
namespace Sys2Proof.BarFrames

open Sys2Proof.Machine Sys2Proof.Laws Sys2Proof.Frames

/-! ### The stages -/

/-- The old bar is closed, and the new one has its number. -/
def opened (s : State) (bar : BitVec 16) : State :=
  let t := closeBar (closeOperations s) (cleanBar s)
  { t with
    aon := { t.aon with bar := bar }
    metro := { t.metro with
      on := true, slot := 0, slot0 := true, issue := [], run := false, overScaled := t.metro.overScaled && t.fermata.isSome, noRun := false,
      hold := false, waited := 0, start := t.metro.start + s.metro.len }
    exec := { t.exec with cues := Vector.replicate 128 0, stopped := false, tiles := [] }
    cond := { t.cond with taken := false, dirty := false, past444 := false, plan := t.cond.plan + 1, age := min (t.cond.age + 1) 65535 } }

/-- The state chosen at slot 444 is entered, unless it is Tacet. -/
def takeNext (s : State) : State :=
  match s.cond.next with
  | some n => if n = .tacet then s else enterState s n
  | none => s

/-- State and codes of the bar that `s` opens are in force; in a fermata that goes on, the state stays. -/
def coded (s : State) (resumed : Bool) : State :=
  let t := if s.fermata.isSome && !resumed then s else takeNext s
  takeCodes { t with cond := { t.cond with dur := t.cond.dur + 1 } }

/-- A released fermata has ended. -/
def ended (s : State) (frm dur : Nat) : State :=
  let t := endFermata s frm dur
  { t with cond := { t.cond with ranFermata := t.fermata.isSome } }

/-- The planes have begun the bar. -/
def planed (s : State) : State :=
  planeSlotZero (planeSlotZero (planeHolds { s with metro := { s.metro with sched := runsSchedule s } }) .w) .h

/-- The bar has its context word when it runs a schedule. -/
def contexted (s : State) (sched : Bool) : State :=
  let reads := s.planeW.reading || s.planeH.reading
  let exact := s.cond.exact || !s.cond.good || (s.priv.resumed && reads)
  if sched then
    { s with
      exec := { s.exec with ctx := contextWord s exact, r := if exact then 0 else s.exec.r + 1, tiles := List.replicate (tileCount s) 0 }
      cond := { s.cond with exact := false, good := false }
      priv := { s.priv with resumed := s.priv.resumed && !reads } }
  else { s with cond := { s.cond with good := false } }

/-- The scan timer begins with a bar that changes it. -/
def timed (s : State) (sched changed : Bool) : State :=
  if (sched && !s.touch.on) || (s.touch.on && changed) then touchOrigin { s with touch := { s.touch with on := true } } else s

/-- Planes, context word and scan timer of a bar whose state, codes and link are in force. -/
def marked (s : State) (resumed : Bool) : State :=
  timed (contexted (planed s) (runsSchedule s)) (runsSchedule s) (decide (s.cond.plan = 0) || resumed)

theorem beginBar_eq (s : State) (bar : BitVec 16) : beginBar s bar false =
    marked (ended (duetSlotZero (coded (opened s bar) (s.fermata.any (·.released))) s.metro.len) (opened s bar).st (opened s bar).cond.dur)
      (s.fermata.any (·.released)) := by
  unfold beginBar
  extract_lets +onlyGivenNames lastLen resumed a _ _ _ _ b keeps frm dur c _ d e
  have hb : b = opened s bar := rfl
  rw [← hb]
  clear hb
  clear_value b
  have hc : c = if b.fermata.isSome && !resumed then b else takeNext b := rfl
  have he : e = coded b resumed := by
    clear_value c
    unfold coded
    rw [← hc]
  show _ = marked (ended (duetSlotZero (coded b resumed) lastLen) frm dur) resumed
  rw [← he]
  clear_value e
  clear_value frm dur
  extract_lets +onlyGivenNames f g _ i
  have hg : g = endFermata f frm dur := rfl
  clear_value g
  have hi : i = ended f frm dur := by
    unfold ended
    rw [← hg]
  rw [show ended (duetSlotZero e lastLen) frm dur = i from hi.symm]
  clear_value i
  extract_lets +onlyGivenNames sched changed _ j k l
  have hl : l = planed i := rfl
  unfold marked
  rw [← hl]
  clear_value l
  rfl

/-! ### The new state's work -/

/-- `s` with the supplies, planes and ramp of `t`. -/
def resupplied (s t : State) : State :=
  { s with
    blocks := t.blocks, supply := t.supply, limiter := t.limiter, planeW := t.planeW, planeH := t.planeH, vpix := t.vpix }

/-- From `s` to `t` supplies, planes and the ramp have been changed. -/
def Supplies (s t : State) : Prop := t = resupplied s t

theorem Supplies.trans {s t u : State} (a : Supplies s t) (b : Supplies t u) : Supplies s u := by
  unfold Supplies at *
  rw [b, a]
  rfl

theorem Supplies.ite {s a b : State} {c : Prop} [Decidable c] (x : Supplies s a) (y : Supplies s b) : Supplies s (if c then a else b) := by
  split
  · exact x
  · exact y

theorem supplies_setPlane (s : State) (p : Plane) (x : PlaneState) : Supplies s (s.setPlane p x) := by
  cases p <;> rfl

theorem supplies_planeDown (s : State) (p : Plane) : Supplies s (planeDown s p) := by
  unfold planeDown
  exact .ite ((supplies_setPlane s p _).trans rfl) (supplies_setPlane s p _)

theorem Supplies.foldl {α : Type} {s t : State} (f : State → α → State) (l : List α) (k : ∀ u x, Supplies u (f u x)) (h : Supplies s t) :
    Supplies s (l.foldl f t) := by
  induction l generalizing t with
  | nil => exact h
  | cons a l ih => exact ih (h.trans (k t a))

/-- A transition's slot-0 work gates banks, and changes supplies and planes. -/
theorem supplies_slotZeroWork (s : State) (st : Nat) (up : Bool) : Supplies (gateBanks s (stBanks s st)) (slotZeroWork s st up) := by
  unfold slotZeroWork
  refine .ite (Supplies.foldl _ _ (fun u p => .ite rfl (supplies_planeDown u p)) ?_) ?_
  · rfl
  · rfl

theorem supplies_startRamp (s : State) (old : Nat) (new : PState) (up : Bool) : Supplies s (startRamp s old new up) := rfl

/-- The Conductor at the start of a bar under a new state. -/
def newState (c : Conductor) (new : PState) : Conductor :=
  { c with state := new, next := none, plan := 0, dur := 0, rules := [], overrunRec := false, exact := true }

/-- A new state in force (R92, R314): its supplies and planes, the follower's next length, and the Conductor's counts begin anew. -/
theorem enterState_frame (s : State) (new : PState) : ∃ next t, Supplies (gateBanks s (stBanks s new.num)) t ∧ enterState s new =
    { t with metro := { t.metro with next := next }, cond := newState s.cond new } := by
  unfold enterState
  extract_lets old up ramp t u
  have work : Supplies (gateBanks s (stBanks s new.num)) t := supplies_slotZeroWork s _ _
  have ramps : Supplies (gateBanks s (stBanks s new.num)) u := .ite work (work.trans (supplies_startRamp t _ _ _))
  have cond : u.cond = s.cond := (congrArg State.cond (show u = resupplied _ u from ramps) :)
  refine ⟨if stDivx u old = stDivx u new.num then u.metro.next else none, u, ramps, ?_⟩
  rw [← cond]
  rfl

/-! ### The link's slot 0 -/

/-- `s` with what its link, its queues and the loop of a follower are in `t`. -/
def relinked (s t : State) : State :=
  { s with
    aon := { s.aon with seq := t.aon.seq, dropFlag := t.aon.dropFlag, drops := t.aon.drops }
    port := t.port
    duet := t.duet
    metro := { s.metro with
      aligned := t.metro.aligned, next := t.metro.next, x := t.metro.x, r := t.metro.r, rRecv := t.metro.rRecv, tlPrev := t.metro.tlPrev
      len := t.metro.len } }

/-- From `s` to `t` the link and the queues of records and frames have changed. -/
def Links (s t : State) : Prop := t = relinked s t

theorem Links.refl (s : State) : Links s s := rfl

theorem Links.trans {s t u : State} (a : Links s t) (b : Links t u) : Links s u := by
  unfold Links at *
  rw [b, a]
  rfl

theorem Links.ite {s a b : State} {c : Prop} [Decidable c] (x : Links s a) (y : Links s b) : Links s (if c then a else b) := by
  split
  · exact x
  · exact y

theorem Links.foldl {α : Type} {s t : State} (f : State → α → State) (l : List α) (k : ∀ u x, Links u (f u x)) (h : Links s t) :
    Links s (l.foldl f t) := by
  induction l generalizing t with
  | nil => exact h
  | cons a l ih => exact ih (h.trans (k t a))

theorem links_countDrop (s : State) (n : Nat) : Links s (countDrop s n) := by
  unfold countDrop
  exact .ite rfl rfl

theorem links_enqueue (s : State) (type flags src : Nat) (payload : List Byte) : Links s (pushQ2 (makeRoom s) type flags src payload) := by
  have room : Links s (makeRoom s) := by
    unfold makeRoom
    exact .ite rfl (Links.trans (t := { s with port := { s.port with ring := _ } }) rfl (links_countDrop _ 1))
  exact room.trans rfl

theorem links_pushQ3 (s : State) (type : BitVec 4) (body : List Byte) : Links s (pushQ3 s type body) := by
  unfold pushQ3
  exact .ite rfl (links_countDrop s 1)

theorem links_pushRecord (s : State) (type : Nat) (stale : Bool) (src : Nat) (payload : State → List Byte) :
    Links s (pushRecord s type stale src payload) := by
  refine .ite ?_ (links_enqueue s _ _ _ _)
  unfold pushRelay
  refine .ite (Links.trans (t := { s with aon := { s.aon with dropFlag := false } }) rfl ?_) (links_countDrop s 1)
  exact (links_pushQ3 _ _ _).trans (links_pushQ3 _ _ _)

theorem links_pushChange (s : State) (cause frm dst len entry dur : Nat) : Links s (pushChange s cause frm dst len entry dur) :=
  .ite (links_pushRecord s _ _ _ _) ((links_pushRecord s _ _ _ _).trans rfl)

theorem links_exchangeRoles (s : State) (lastLen : Nat) : Links s (exchangeRoles s lastLen) := by
  unfold exchangeRoles
  extract_lets _ _ _ _ t _ u _ v
  have swapped : Links s t := rfl
  refine swapped.trans (.ite ?_ ?_)
  · exact Links.foldl _ _ (fun w e => links_enqueue w _ _ _ _) rfl
  · exact (links_countDrop t _).trans rfl

theorem links_goUp (s : State) : Links s (goUp s) := rfl

theorem links_setBarLength (s : State) : Links s (setBarLength s) := by
  unfold setBarLength
  exact .ite rfl (.ite (.ite rfl rfl) rfl)

theorem links_offerSwapGo (s : State) : Links s (offerSwapGo s) := by
  unfold offerSwapGo
  exact .ite (links_pushQ3 s _ _) rfl

theorem links_sendLink (s : State) (type : BitVec 4) : Links s (sendLink s type) := rfl

theorem links_duetSlotZero (s : State) (lastLen : Nat) : Links s (duetSlotZero s lastLen) := by
  unfold duetSlotZero
  extract_lets _ t u v w
  have passed : Links s t := rfl
  have exchanged : Links t u := .ite (links_exchangeRoles t lastLen) (.refl t)
  have up : Links u v := .ite (links_goUp u) (.refl u)
  have offered : Links v w := (links_setBarLength v).trans (links_offerSwapGo _)
  have sent : Links w (if w.leader = true then sendLink w 1 else w) := .ite (links_sendLink w 1) (.refl w)
  exact (passed.trans (exchanged.trans (up.trans offered))).trans sent

/-! ### The planes' slot 0 -/

/-- `s` with the planes, their holds, the context and the scan timer of `t`. -/
def replaned (s t : State) : State :=
  { s with
    planeW := t.planeW, planeH := t.planeH, priv := t.priv, limiter := t.limiter, touch := t.touch
    metro := { s.metro with sched := t.metro.sched, due := t.metro.due }
    cond := { s.cond with exact := t.cond.exact, good := t.cond.good }
    exec := { s.exec with ctx := t.exec.ctx, r := t.exec.r, tiles := t.exec.tiles } }

/-- From `s` to `t` the planes and the marks of the bar have changed. -/
def Planes (s t : State) : Prop := t = replaned s t

theorem Planes.refl (s : State) : Planes s s := rfl

theorem Planes.trans {s t u : State} (a : Planes s t) (b : Planes t u) : Planes s u := by
  unfold Planes at *
  rw [b, a]
  rfl

theorem Planes.ite {s a b : State} {c : Prop} [Decidable c] (x : Planes s a) (y : Planes s b) : Planes s (if c then a else b) := by
  split
  · exact x
  · exact y

/-- A power-up that fails ends; the ramp and a plane know of it. -/
theorem endFailedPowerUp_frame (s : State) : endFailedPowerUp s = { s with
    planeW := (endFailedPowerUp s).planeW, planeH := (endFailedPowerUp s).planeH, limiter := (endFailedPowerUp s).limiter } := by
  unfold endFailedPowerUp
  extract_lets l
  split
  · rfl
  · rename_i p _
    cases p
    · split <;> rfl
    · split <;> rfl

/-- Holds that end at a bar start change the planes, their holds and what is due. -/
theorem planeHolds_frame (s : State) : let t := planeHolds s
    t = { s with planeW := t.planeW, planeH := t.planeH, limiter := t.limiter, priv := t.priv, metro := { s.metro with due := t.metro.due } } := by
  unfold planeHolds
  rw [endFailedPowerUp_frame s]

theorem planeSlotZero_frame (s : State) (p : Plane) : let t := planeSlotZero s p
    t = { s with planeW := t.planeW, planeH := t.planeH } := by
  cases p <;> rfl

theorem planed_frame (s : State) : let t := planed s
    t = { s with
      planeW := t.planeW, planeH := t.planeH, limiter := t.limiter, priv := t.priv
      metro := { s.metro with sched := runsSchedule s, due := t.metro.due } } := by
  unfold planed
  rw [planeSlotZero_frame, planeSlotZero_frame, planeHolds_frame]

theorem planes_planed (s : State) : Planes s (planed s) := by
  unfold Planes
  rw [planed_frame]
  rfl

theorem planes_contexted (s : State) (sched : Bool) : Planes s (contexted s sched) := by
  unfold contexted
  exact .ite rfl rfl

theorem planes_timed (s : State) (sched changed : Bool) : Planes s (timed s sched changed) := by
  unfold timed
  exact .ite rfl rfl

theorem planes_marked (s : State) (resumed : Bool) : Planes s (marked s resumed) :=
  (planes_planed s).trans ((planes_contexted _ _).trans (planes_timed _ _ _))

end Sys2Proof.BarFrames
end

section
/-!
SUPPORT. What a bar start leaves of the bar that ends, and the state and the codes that it puts in force (R16, R70, R92, R103, R153 to R155).
-/
namespace Sys2Proof.BarOpens

open Sys2Proof.Machine Sys2Proof.Laws Sys2Proof.Frames Sys2Proof.BarFrames

/-! ### The bar that ends -/

theorem closeOperations_frame (s : State) : closeOperations s = { s with
    ram := (closeOperations s).ram, dets := (closeOperations s).dets, exec := (closeOperations s).exec
    cond := { s.cond with exact := (closeOperations s).cond.exact } } := by
  unfold closeOperations
  split
  · rfl
  · split <;> rfl

/-- `s` as the bar `bar` opens, with memory, detectors, operations and the warning window of `t`. -/
def opening (s : State) (bar : BitVec 16) (t : State) : State :=
  { s with
    ram := t.ram, dets := t.dets
    aon := { s.aon with bar := bar, warnings := t.aon.warnings, cleanBars := t.aon.cleanBars, warnCap := t.aon.warnCap }
    metro := { s.metro with
      on := true, slot := 0, slot0 := true, issue := [], run := false, overScaled := s.metro.overScaled && s.fermata.isSome, noRun := false
      hold := false, waited := 0, start := s.metro.start + s.metro.len }
    exec := { t.exec with cues := Vector.replicate 128 0, stopped := false, tiles := [] }
    cond := { s.cond with
      taken := false, dirty := false, past444 := false, plan := s.cond.plan + 1, age := min (s.cond.age + 1) 65535, exact := t.cond.exact } }

theorem opened_frame (s : State) (bar : BitVec 16) : opened s bar = opening s bar (opened s bar) := by
  unfold opened
  rw [closeOperations_frame s]
  rfl

/-- A bar that passes leaves what is pending. -/
theorem closeBar_pending (s : State) (clean : Bool) (d : Nat) : ((closeBar s clean).det d).pending = (s.det d).pending := by
  have dets : (closeBar s clean).dets = s.dets.map fun d => { d with since := d.since.map (· + 1) } := rfl
  unfold State.det
  rw [dets, Vector.getElem?_map]
  cases s.dets[d]? <;> rfl

theorem opened_pending (s : State) (bar : BitVec 16) (d : Nat) : ((opened s bar).det d).pending = ((closeOperations s).det d).pending :=
  closeBar_pending (closeOperations s) (cleanBar s) d

theorem closeOperations_late {s : State} (runs : s.exec.stopped = false) {q i : Nat} {l : List (Nat × Nat)} (late : lateOps s 448 = (q, i) :: l) :
    closeOperations s = scrub (abandonOps (tripAt s 15 false (overrunDetail i q false 448) s.aon.bar 447)) := by
  unfold closeOperations
  rw [if_neg (by simp [runs]), late]

/-- Operations that are late at the bar's end are abandoned, memory is scrubbed, and the overrun waits for its record (R154, R155). -/
theorem opened_late {s : State} (bar : BitVec 16) (runs : s.exec.stopped = false) (late : lateOps s 448 ≠ []) :
    let t := opened s bar
    t.exec.tutti = [] ∧ t.exec.soli = [] ∧ t.exec.q0 = [] ∧ t.exec.q1 = [] ∧ t.exec.sections = Vector.replicate 32 none ∧ t.ram = Ram.empty
      ∧ (t.det 15).pending = true := by
  obtain ⟨⟨q, i⟩, l, late⟩ := List.exists_cons_of_ne_nil late
  have closes := closeOperations_late runs late
  have ram : (opened s bar).ram = (closeOperations s).ram := rfl
  have exec : (opened s bar).exec = { (closeOperations s).exec with cues := Vector.replicate 128 0, stopped := false, tiles := [] } := rfl
  have pending := opened_pending s bar 15
  rw [closes] at ram exec pending
  intro t
  rw [show t.exec = _ from exec, show t.ram = _ from ram, show (t.det 15).pending = _ from pending]
  refine ⟨rfl, rfl, rfl, rfl, rfl, rfl, ?_⟩
  exact congrArg Detector.pending (setDet_det s 15 _ (by decide))

/-- The end of a bar trips detector 15 alone. -/
theorem opened_pending_other (s : State) (bar : BitVec 16) {d : Nat} (h : d ≠ 15) : ((opened s bar).det d).pending = (s.det d).pending := by
  rw [opened_pending]
  unfold closeOperations
  split
  · rfl
  · split
    · rfl
    · exact congrArg Detector.pending (setDet_other s 15 d _ h)

/-! ### State and codes -/

/-- A code that a bar start takes. -/
def taken (c : Codes) : Codes := ⟨c.rubato.take, c.sense.take, c.inject.take, c.leak.take⟩

theorem takeCodes_frame (s : State) : takeCodes s = { s with
    codes := taken s.codes
    aon := { s.aon with leak := (takeCodes s).aon.leak, lock := (takeCodes s).aon.lock }
    inj := (takeCodes s).inj
    cond := { s.cond with exact := (takeCodes s).cond.exact } } := by
  unfold takeCodes
  dsimp only
  split <;> rfl

/-- `s` with a state's work, the codes taken and the state, its ramp and its supplies as in `t`. -/
def coding (s t : State) : State :=
  { s with
    ram := t.ram, blocks := t.blocks, supply := t.supply, limiter := t.limiter, planeW := t.planeW, planeH := t.planeH, vpix := t.vpix
    metro := { s.metro with next := t.metro.next }
    codes := taken s.codes
    aon := { s.aon with leak := t.aon.leak, lock := t.aon.lock }
    inj := t.inj
    cond := { s.cond with
      state := t.cond.state, next := t.cond.next, plan := t.cond.plan, dur := t.cond.dur, rules := t.cond.rules
      overrunRec := t.cond.overrunRec, exact := t.cond.exact } }

theorem coded_frame (s : State) (resumed : Bool) : coded s resumed = coding s (coded s resumed) := by
  have next : takeNext s = { coding s (takeNext s) with codes := s.codes, aon := s.aon, inj := s.inj } := by
    unfold takeNext
    split
    · split
      · rfl
      · rename_i n _ _
        obtain ⟨loop, t, supplies, e⟩ := enterState_frame s n
        rw [e, show t = resupplied _ t from supplies]
        rfl
    · rfl
  unfold coded
  rw [takeCodes_frame]
  split
  · rfl
  · rw [next]
    rfl

/-- A state chosen at slot 444 is in force with the codes, in its first bar. -/
theorem coded_next {s : State} {resumed : Bool} (ends : (s.fermata.isSome && !resumed) = false) {n : PState} (next : s.cond.next = some n)
    (wakes : n ≠ .tacet) : (coded s resumed).cond.state = n ∧ (coded s resumed).cond.plan = 0 := by
  have enters : takeNext s = enterState s n := by
    unfold takeNext
    rw [next]
    exact if_neg wakes
  unfold coded
  rw [takeCodes_frame, ends, enters]
  obtain ⟨loop, t, supplies, e⟩ := enterState_frame s n
  rw [e]
  exact ⟨rfl, rfl⟩

theorem coded_same {s : State} {resumed : Bool} (stays : (s.fermata.isSome && !resumed) = true ∨ s.cond.next = none) :
    (coded s resumed).cond.state = s.cond.state ∧ (coded s resumed).cond.plan = s.cond.plan ∧ (coded s resumed).cond.next = s.cond.next
      ∧ (coded s resumed).ram = s.ram := by
  have same : (if s.fermata.isSome && !resumed then s else takeNext s) = s := by
    split
    · rfl
    · unfold takeNext
      rcases stays with stays | none
      · contradiction
      · rw [none]
  unfold coded
  rw [takeCodes_frame, same]
  exact ⟨rfl, rfl, rfl, rfl⟩

/-- An empty memory stays empty through a new state's slot-0 work. -/
theorem coded_ram {s : State} (resumed : Bool) (empty : s.ram = Ram.empty) : (coded s resumed).ram = Ram.empty := by
  have next : (takeNext s).ram = Ram.empty := by
    unfold takeNext
    split
    · split
      · exact empty
      · rename_i n _ _
        obtain ⟨loop, t, supplies, e⟩ := enterState_frame s n
        rw [e]
        have gated : t.ram = (gateBanks s (stBanks s n.num)).ram := (congrArg State.ram (show t = resupplied _ t from supplies) :)
        unfold gateBanks at gated
        rw [empty] at gated
        exact gated
    · exact empty
  unfold coded
  rw [takeCodes_frame]
  split
  · exact empty
  · exact next

end Sys2Proof.BarOpens
end

section
/-!
How a bar begins (O35): the state, the codes and the marks that a bar start leaves, outside fermata, in one and at the end of one, and the acquisition
hold of a follower.
-/
namespace Sys2Proof.BarStart

open Sys2Proof.Machine Sys2Proof.Laws Sys2Proof.Frames Sys2Proof.BarFrames Sys2Proof.BarOpens Sys2Proof.Safety

/-! ### The frame of a bar start -/

/-- `s` with what a bar start changes once state and codes are in force, taken from `t`. -/
def following (s t : State) : State :=
  { s with
    aon := { s.aon with seq := t.aon.seq, dropFlag := t.aon.dropFlag, drops := t.aon.drops, unclean := t.aon.unclean }
    dets := t.dets, port := t.port, duet := t.duet, fermata := t.fermata, priv := t.priv, limiter := t.limiter
    planeW := t.planeW, planeH := t.planeH, touch := t.touch
    metro := { s.metro with
      aligned := t.metro.aligned, next := t.metro.next, x := t.metro.x, r := t.metro.r, rRecv := t.metro.rRecv, tlPrev := t.metro.tlPrev
      len := t.metro.len, sched := t.metro.sched, due := t.metro.due }
    cond := { s.cond with
      deferred := t.cond.deferred, overrunRec := t.cond.overrunRec, exact := t.cond.exact, ranFermata := t.cond.ranFermata, good := t.cond.good }
    exec := { s.exec with
      clips := t.exec.clips, skipped := t.exec.skipped, restAge := t.exec.restAge, restWeak := t.exec.restWeak, marked := t.exec.marked
      ctx := t.exec.ctx, r := t.exec.r, tiles := t.exec.tiles } }

/-- From `s` to `t` a bar start has gone on, its state and codes in force. -/
def Follows (s t : State) : Prop := t = following s t

theorem Follows.trans {s t u : State} (a : Follows s t) (b : Follows t u) : Follows s u := by
  unfold Follows at *
  rw [b, a]
  rfl

theorem Filed.follows {s t : State} (h : Filed s t) : Follows s t := by
  unfold Follows
  rw [show t = refiled s t from h]
  rfl

theorem Links.follows {s t : State} (h : Links s t) : Follows s t := by
  unfold Follows
  rw [show t = relinked s t from h]
  rfl

theorem Planes.follows {s t : State} (h : Planes s t) : Follows s t := by
  unfold Follows
  rw [show t = replaned s t from h]
  rfl

/-- The state in which a fermata's end lays its records down. -/
def unheld (s : State) : State := newStamp { s with fermata := none, cond := { s.cond with exact := true } }

theorem endFermata_released {s : State} {f : Fermata} (h : s.fermata = some f) (released : f.released = true) (frm dur : Nat) :
    endFermata s frm dur = fermataRecords (unheld s) f frm s.st dur := by
  unfold endFermata
  rw [h]
  exact if_pos released

theorem endFermata_held {s : State} (h : s.fermata.any (·.released) = false) (frm dur : Nat) : endFermata s frm dur = s := by
  unfold endFermata
  split
  · rename_i f e
    rw [e] at h
    exact if_neg (Bool.eq_false_iff.mp h)
  · rfl

theorem follows_ended (s : State) (frm dur : Nat) : Follows s (ended s frm dur) := by
  have ends : Follows s (endFermata s frm dur) := by
    cases released : s.fermata.any (·.released) with
    | false => rw [endFermata_held released]; rfl
    | true =>
      obtain ⟨f, h, r⟩ := (Option.any_eq_true _ _).mp released
      rw [endFermata_released h r]
      exact Follows.trans (t := unheld s) rfl (Filed.follows (filed_fermataRecords _ _ _ _ _))
  exact ends.trans rfl

section
variable (s : State) (bar : BitVec 16)

/-- State and codes of the bar that `s` begins. -/
def entered : State := coded (opened s bar) (s.fermata.any (·.released))

/-- The bar that `s` begins, its link's slot 0 done. -/
def linkedBar : State := duetSlotZero (entered s bar) s.metro.len

theorem links_linkedBar : Links (entered s bar) (linkedBar s bar) := links_duetSlotZero _ _

/-- The bar that `s` begins, its fermata ended where it has been released. -/
def resumedBar : State := ended (linkedBar s bar) (opened s bar).st (opened s bar).cond.dur

theorem beginBar_eq_marked : beginBar s bar false = marked (resumedBar s bar) (s.fermata.any (·.released)) := beginBar_eq s bar

/-- All that a bar start changes. -/
theorem beginBar_frame : beginBar s bar false = following (coding (opening s bar (opened s bar)) (entered s bar)) (beginBar s bar false) := by
  have first : entered s bar = coding (opening s bar (opened s bar)) (entered s bar) := by
    rw [← opened_frame]
    exact coded_frame _ _
  have linked : Follows (entered s bar) (linkedBar s bar) := Links.follows (links_linkedBar s bar)
  have marks : Follows (resumedBar s bar) (marked (resumedBar s bar) (s.fermata.any (·.released))) := Planes.follows (planes_marked _ _)
  rw [← first, beginBar_eq_marked]
  exact (linked.trans (follows_ended _ _ _)).trans marks

theorem planed_staves : (planed s).planeW.stave = Vector.replicate 16 none ∧ (planed s).planeH.stave = Vector.replicate 16 none := by
  unfold planed
  generalize planeHolds _ = t
  exact ⟨rfl, rfl⟩

theorem contexted_planes (sched : Bool) : (contexted s sched).planeW = s.planeW ∧ (contexted s sched).planeH = s.planeH := by
  unfold contexted
  extract_lets
  split <;> exact ⟨rfl, rfl⟩

theorem timed_frame (sched changed : Bool) : timed s sched changed = { s with touch := (timed s sched changed).touch } := by
  unfold timed
  split <;> rfl

/-- A bar begins with empty staves (R129). -/
theorem marked_staves (resumed : Bool) :
    (marked s resumed).planeW.stave = Vector.replicate 16 none ∧ (marked s resumed).planeH.stave = Vector.replicate 16 none := by
  obtain ⟨w, h⟩ := planed_staves s
  obtain ⟨keepW, keepH⟩ := contexted_planes (planed s) (runsSchedule s)
  unfold marked
  rw [timed_frame]
  exact ⟨(congrArg PlaneState.stave keepW).trans w, (congrArg PlaneState.stave keepH).trans h⟩

end

/-! ### Bars outside fermata -/

/-- The state in which a bar start has read without error. -/
def readIn (s : State) : State := { s with metro := { s.metro with barErrors := [] } }

theorem exec_barStart {s : State} (done : slotDone s = true) (last : s.metro.slot = 447) (not0 : s.metro.slot0 = false) (runs : s.running = true)
    (begins : (s.follower && !s.metro.aligned && divisorsEqual s) = false) (reads : romFailures s.metro.barErrors = []) :
    exec .barStart s = .next (beginBar (readIn s) (s.aon.bar + 1) false) := by
  show execBarStart s = _
  unfold execBarStart
  rw [if_pos (by simp [done, last, not0]), if_neg (by simp [runs]), if_neg (Bool.eq_false_iff.mp begins), startBar_none s _ reads]
  rfl

/-- What every bar start leaves: its number, slot 0, cues, staves and codes. -/
structure Begun (s t : State) (bar : BitVec 16) : Prop where
  bar : t.aon.bar = bar
  slot : t.metro.slot = 0
  slot0 : t.metro.slot0 = true
  hold : t.metro.hold = false
  start : t.metro.start = s.metro.start + s.metro.len
  overScaled : t.metro.overScaled = (s.metro.overScaled && s.fermata.isSome)
  cues : t.exec.cues = Vector.replicate 128 0
  staveW : t.planeW.stave = Vector.replicate 16 none
  staveH : t.planeH.stave = Vector.replicate 16 none
  codes : t.codes = taken s.codes
  nvm : t.nvm = s.nvm

section
variable (s : State) (bar : BitVec 16)

theorem begun : Begun s (beginBar s bar false) bar := by
  have frame := beginBar_frame s bar
  obtain ⟨staveW, staveH⟩ := marked_staves (resumedBar s bar) (s.fermata.any (·.released))
  rw [← beginBar_eq_marked] at staveW staveH
  exact ⟨(congrArg (fun x => x.aon.bar) frame :), (congrArg (fun x => x.metro.slot) frame :), (congrArg (fun x => x.metro.slot0) frame :),
    (congrArg (fun x => x.metro.hold) frame :), (congrArg (fun x => x.metro.start) frame :), (congrArg (fun x => x.metro.overScaled) frame :),
    (congrArg (fun x => x.exec.cues) frame :), staveW, staveH, (congrArg State.codes frame :), (congrArg State.nvm frame :)⟩

/-- State and number of the bar in it are those of the codes' taking. -/
theorem beginBar_cond : (beginBar s bar false).cond.state = (entered s bar).cond.state ∧ (beginBar s bar false).cond.plan = (entered s bar).cond.plan
    ∧ (beginBar s bar false).cond.next = (entered s bar).cond.next := by
  have frame := beginBar_frame s bar
  exact ⟨(congrArg (fun x => x.cond.state) frame :), (congrArg (fun x => x.cond.plan) frame :), (congrArg (fun x => x.cond.next) frame :)⟩

theorem opened_reads : (opened s bar).fermata = s.fermata ∧ (opened s bar).cond.next = s.cond.next ∧ (opened s bar).cond.state = s.cond.state
    ∧ (opened s bar).cond.plan = s.cond.plan + 1 := by
  have frame := opened_frame s bar
  exact ⟨(congrArg State.fermata frame :), (congrArg (fun x => x.cond.next) frame :), (congrArg (fun x => x.cond.state) frame :),
    (congrArg (fun x => x.cond.plan) frame :)⟩

/-- Outside fermata, and at the end of one, the state chosen at slot 444 is in force. -/
theorem beginBar_next (ends : (s.fermata.isSome && !s.fermata.any (·.released)) = false) {n : PState} (next : s.cond.next = some n)
    (wakes : n ≠ .tacet) : (beginBar s bar false).cond.state = n ∧ (beginBar s bar false).cond.plan = 0 := by
  obtain ⟨fermata, chosen, _, _⟩ := opened_reads s bar
  obtain ⟨state, plan⟩ := coded_next (s := opened s bar) (resumed := s.fermata.any (·.released)) (by rw [fermata, ends]) (chosen.trans next) wakes
  obtain ⟨keepState, keepPlan, _⟩ := beginBar_cond s bar
  exact ⟨keepState.trans state, keepPlan.trans plan⟩

/-- Without a choice, and in a fermata that goes on, the state stays. -/
theorem beginBar_same (stays : (s.fermata.isSome && !s.fermata.any (·.released)) = true ∨ s.cond.next = none) :
    (beginBar s bar false).cond.state = s.cond.state ∧ (beginBar s bar false).cond.plan = s.cond.plan + 1
      ∧ (beginBar s bar false).cond.next = s.cond.next := by
  obtain ⟨fermata, chosen, was, bars⟩ := opened_reads s bar
  obtain ⟨state, plan, next, _⟩ := coded_same (s := opened s bar) (resumed := s.fermata.any (·.released)) (by rw [fermata, chosen]; exact stays)
  obtain ⟨keepState, keepPlan, keepNext⟩ := beginBar_cond s bar
  exact ⟨keepState.trans (state.trans was), keepPlan.trans (plan.trans bars), keepNext.trans (next.trans chosen)⟩

end

theorem startBar_stopped {s : State} (errors : romFailures s.metro.barErrors ≠ []) (begins : State → State) :
    Part.StoppedByRead (startBar s begins) := withRomErrors_stops _ _ _ errors

theorem barStart : Part.BarStart := by
  refine ⟨fun s done last not0 runs live begins reads => ?_, fun s errors => ⟨fun done last not0 aligned => ?_, fun runs hold => ?_⟩⟩
  · have b := begun (readIn s) (s.aon.bar + 1)
    refine ⟨_, exec_barStart done last not0 runs begins reads, b.bar, b.slot, b.slot0, fun c => ?_, fun k => ?_, ?_, ?_, ?_, ?_, fun n next wakes => ?_,
      fun none => ?_, b.nvm⟩
    · rw [b.cues]
      simp
    · rw [b.staveW, b.staveH]
      simp
    · rw [b.codes]; rfl
    · rw [b.codes]; rfl
    · rw [b.codes]; rfl
    · rw [b.codes]; rfl
    · exact beginBar_next (readIn s) _ (by simp [readIn, live]) next wakes
    · obtain ⟨state, plan, _⟩ := beginBar_same (readIn s) (s.aon.bar + 1) (.inr none)
      exact ⟨state, plan⟩
  · have begins : exec .barStart s = (if s.running = false then .next (startBar s beginEntryBar)
        else .next (startBar s fun s => beginBar s (s.aon.bar + 1) false)) := by
      show execBarStart s = _
      unfold execBarStart
      rw [if_pos (by simp [done, last, not0])]
      cases runs : s.running with
      | false => rfl
      | true =>
        have free : (s.follower && !s.metro.aligned && divisorsEqual s) = false := by
          rw [Bool.eq_false_iff]
          intro k
          simp only [Bool.and_eq_true, Bool.not_eq_true'] at k
          exact aligned ⟨runs, k.1.1, k.1.2, k.2⟩
        rw [free]
        rfl
    rw [begins]
    split
    · exact ⟨_, rfl, startBar_stopped errors _⟩
    · exact ⟨_, rfl, startBar_stopped errors _⟩
  · exact ⟨_, if_pos (by simp [runs, hold]), startBar_stopped errors _⟩

/-! ### Late operations -/

theorem Links.dets {s t : State} (h : Links s t) : t.dets = s.dets := by
  have e : t = relinked s t := h
  exact (congrArg State.dets e :)

theorem Planes.dets {s t : State} (h : Planes s t) : t.dets = s.dets := by
  have e : t = replaned s t := h
  exact (congrArg State.dets e :)

theorem coded_dets (s : State) (resumed : Bool) : (coded s resumed).dets = s.dets := (congrArg State.dets (coded_frame s resumed) :)

theorem det_of_dets {s t : State} (h : t.dets = s.dets) (d : Nat) : t.det d = s.det d := by
  unfold State.det
  rw [h]

/-- Detector 15 keeps a trip through the records of a fermata's end. -/
theorem setDet3_pushFault (s : State) (x : Detector) (ongoing : Bool) (step : Nat) :
    (pushFault (s.setDet 3 x) 3 ongoing step).det 15 = s.det 15 := by
  unfold pushFault
  extract_lets t
  rw [setDet_other _ _ _ _ (by decide), det_of_dets (Links.dets (links_pushRecord (s.setDet 3 x) _ _ _ _)), setDet_other _ _ _ _ (by decide)]

theorem noteChange_dets (s : State) (cause frm dst len dur : Nat) : (noteChange s cause frm dst len dur).dets = s.dets := by
  unfold noteChange
  split
  · rfl
  · exact Links.dets (links_pushChange s _ _ _ _ _ _)

theorem fermataRecords_det (s : State) (f : Fermata) (frm dst dur : Nat) : (fermataRecords s f frm dst dur).det 15 = s.det 15 := by
  unfold fermataRecords
  extract_lets d t
  have fault : t.det 15 = s.det 15 := by
    unfold t
    split
    · exact setDet3_pushFault s _ _ _
    · rfl
  exact (det_of_dets (noteChange_dets t _ _ _ _ _) 15).trans fault

theorem ended_det (s : State) (frm dur : Nat) : (ended s frm dur).det 15 = s.det 15 := by
  show (endFermata s frm dur).det 15 = _
  cases released : s.fermata.any (·.released) with
  | false => rw [endFermata_held released]
  | true =>
    obtain ⟨f, h, r⟩ := (Option.any_eq_true _ _).mp released
    rw [endFermata_released h r]
    exact fermataRecords_det _ _ _ _ _

/-- What the end of a bar leaves pending of detector 15 is pending in the next. -/
theorem beginBar_det (s : State) (bar : BitVec 16) : (beginBar s bar false).det 15 = (opened s bar).det 15 := by
  have link := Links.dets (links_linkedBar s bar)
  rw [beginBar_eq_marked, det_of_dets (Planes.dets (planes_marked (resumedBar s bar) _))]
  exact (ended_det _ _ _).trans (det_of_dets (link.trans (coded_dets _ _)) 15)

theorem lateOps_ne_nil {s : State} {d : Nat}
    (late : (∃ i, (i ∈ s.exec.tutti ∨ i ∈ s.exec.q0.map (·.index)) ∧ (syncAt s (descOff s i)).deadline = d)
      ∨ ∃ i, (i ∈ s.exec.soli.map (·.index) ∨ i ∈ s.exec.q1.map (·.index)) ∧ (syncAt s (recOff s i)).deadline = d) : lateOps s d ≠ [] := by
  rcases late with ⟨i, own, at_d⟩ | ⟨i, own, at_d⟩
  · refine List.ne_nil_of_mem (a := (0, i)) ?_
    unfold lateOps
    rcases own with own | own
    · simp [own, at_d]
    · simp only [List.mem_map] at own
      simp [own, at_d]
  · refine List.ne_nil_of_mem (a := (1, i)) ?_
    unfold lateOps
    rcases own with own | own
    · simp only [List.mem_map] at own
      simp [own, at_d]
    · simp only [List.mem_map] at own
      simp [own, at_d]

theorem lateAtBarEnd : Part.LateAtBarEnd := by
  intro s done last not0 runs begins free reads late
  have frame := beginBar_frame (readIn s) (s.aon.bar + 1)
  obtain ⟨tutti, soli, q0, q1, sections, ram, det⟩ := opened_late (s := readIn s) (s.aon.bar + 1) free (lateOps_ne_nil (s := readIn s) late)
  refine ⟨_, exec_barStart done last not0 runs begins reads, ?_, ?_, ?_, ?_, fun c => ?_, ?_, ?_⟩
  · exact (congrArg (fun x => x.exec.tutti) frame :).trans tutti
  · exact (congrArg (fun x => x.exec.soli) frame :).trans soli
  · exact (congrArg (fun x => x.exec.q0) frame :).trans q0
  · exact (congrArg (fun x => x.exec.q1) frame :).trans q1
  · have empty : (beginBar (readIn s) (s.aon.bar + 1) false).exec.sections = Vector.replicate 32 none :=
      (congrArg (fun x => x.exec.sections) frame :).trans sections
    unfold State.section
    rw [empty]
    simp
  · exact (congrArg State.ram frame :).trans (coded_ram _ ram)
  · rw [beginBar_det]
    exact det

/-! ### Bars in and after a fermata -/

theorem Links.fermata {s t : State} (h : Links s t) : t.fermata = s.fermata := by
  have e : t = relinked s t := h
  exact (congrArg State.fermata e :)

theorem Planes.fermata {s t : State} (h : Planes s t) : t.fermata = s.fermata := by
  have e : t = replaned s t := h
  exact (congrArg State.fermata e :)

/-- The fermata goes into slot 0 as it is. -/
theorem linkedBar_fermata (s : State) (bar : BitVec 16) : (linkedBar s bar).fermata = s.fermata := by
  have entry : (entered s bar).fermata = (opened s bar).fermata := (congrArg State.fermata (coded_frame _ _) :)
  exact (Links.fermata (links_linkedBar s bar)).trans (entry.trans (opened_reads s bar).1)

theorem beginBar_fermata (s : State) (bar : BitVec 16) : (beginBar s bar false).fermata = (resumedBar s bar).fermata := by
  rw [beginBar_eq_marked]
  exact Planes.fermata (planes_marked _ _)

/-- A fermata that goes on stays. -/
theorem ended_held {s : State} (held : s.fermata.any (·.released) = false) (frm dur : Nat) : (ended s frm dur).fermata = s.fermata := by
  unfold ended
  rw [endFermata_held held]

/-- A released fermata ends with its records, and makes the bar exact. -/
theorem ended_released {s : State} {f : Fermata} (h : s.fermata = some f) (released : f.released = true) (frm dur : Nat) :
    (ended s frm dur).port = (fermataRecords (unheld s) f frm s.st dur).port ∧ (ended s frm dur).cond.exact = true
      ∧ (ended s frm dur).cond.state = s.cond.state ∧ (ended s frm dur).fermata = none := by
  have filed : Filed (unheld s) (fermataRecords (unheld s) f frm s.st dur) := filed_fermataRecords _ _ _ _ _
  unfold ended
  rw [endFermata_released h released]
  generalize fermataRecords (unheld s) f frm s.st dur = t at filed
  have e : t = refiled (unheld s) t := filed
  exact ⟨rfl, (congrArg (fun x => x.cond.exact) e :), (congrArg (fun x => x.cond.state) e :), (congrArg State.fermata e :)⟩

section
variable {s : State} (bar : BitVec 16)

theorem resumedBar_held (goesOn : s.fermata.any (·.released) = false) : (resumedBar s bar).fermata = s.fermata := by
  unfold resumedBar
  rw [ended_held (by rw [linkedBar_fermata, goesOn]), linkedBar_fermata]

theorem resumedBar_released {f : Fermata} (h : s.fermata = some f) (released : f.released = true) :
    (resumedBar s bar).port = (fermataRecords (unheld (linkedBar s bar)) f (opened s bar).st (linkedBar s bar).st (opened s bar).cond.dur).port
      ∧ (resumedBar s bar).cond.exact = true ∧ (resumedBar s bar).fermata = none := by
  unfold resumedBar
  obtain ⟨port, exact_, _, none⟩ := ended_released ((linkedBar_fermata s bar).trans h) released (opened s bar).st (opened s bar).cond.dur
  exact ⟨port, exact_, none⟩

end

/-! #### The bar after a fermata is exact -/

theorem st_lt (s : State) : s.st < 4 := by
  unfold State.st
  cases s.cond.state <;> decide

theorem contextWord_exact (s : State) : (contextWord s true).getLsbD 3 = true := by
  have small := st_lt s
  unfold contextWord
  rw [BitVec.getLsbD_ofNat, Nat.testBit_eq_decide_div_mod_eq]
  cases s.leader <;> cases s.partnerUp <;> simp <;> omega

theorem contexted_keeps (s : State) (sched : Bool) : (contexted s sched).metro = s.metro := by
  unfold contexted
  extract_lets
  split <;> rfl

theorem marked_sched (s : State) (resumed : Bool) : (marked s resumed).metro.sched = runsSchedule s := by
  unfold marked
  rw [timed_frame]
  show (contexted (planed s) (runsSchedule s)).metro.sched = _
  rw [contexted_keeps, planed_frame]

/-- A bar that runs its schedule exactly says so in its context word (R142). -/
theorem marked_exact {s : State} (exact_ : s.cond.exact = true) {resumed : Bool} (runs : (marked s resumed).metro.sched = true) :
    (marked s resumed).exec.ctx.getLsbD 3 = true := by
  rw [marked_sched] at runs
  have word : (contexted (planed s) true).exec.ctx = contextWord (planed s) true := by
    have keeps : (planed s).cond.exact = true := by
      rw [planed_frame]
      exact exact_
    show contextWord (planed s) ((planed s).cond.exact || _ || _) = _
    rw [keeps]
    rfl
  unfold marked
  rw [timed_frame, runs]
  show (contexted (planed s) true).exec.ctx.getLsbD 3 = true
  rw [word]
  exact contextWord_exact _

/-! #### The record of a fermata's end -/

theorem setBarLength_frame (s : State) : setBarLength s = { s with metro := (setBarLength s).metro } := by
  unfold setBarLength
  dsimp only
  split
  · rfl
  · split
    · split <;> rfl
    · rfl

/-- Without a link slot 0 leaves the event ring alone. -/
theorem duetSlotZero_off {s : State} (off : s.duet.link = .off) (lastLen : Nat) :
    (duetSlotZero s lastLen).port.ring = s.port.ring ∧ (duetSlotZero s lastLen).duet.link = .off := by
  unfold duetSlotZero
  extract_lets _ t u v w
  have link : t.duet.link = .off := off
  have stays : v = t := by
    have first : u = t := if_neg (by simp [link])
    unfold v
    rw [first]
    exact if_neg (by simp [link])
  have lengthens : w = { t with metro := (setBarLength t).metro } := by
    unfold w offerSwapGo
    rw [stays, setBarLength_frame]
    exact if_neg (by simp [link])
  have alone : w.leader = false := by
    rw [lengthens]
    unfold State.leader
    simp [link]
  rw [alone, lengthens]
  exact ⟨rfl, link⟩

/-- A record of a module without link is the ring's last entry, when the ring has room. -/
theorem pushChange_ring {s : State} (off : s.duet.link = .off) (room : s.port.ring.length < 64) (cause frm dst len entry dur : Nat) :
    ∃ e seq flags, (pushChange s cause frm dst len entry dur).port.ring = s.port.ring ++ [e] ∧ e.st = .enqueued
      ∧ e.data = recordOf s 7 seq flags 0 (changePayload s cause frm dst len entry dur) := by
  have alone : s.relays = false := by
    unfold State.relays State.follower
    simp [off]
  have fits : makeRoom s = s := if_pos room
  have files : pushRecord s 7 false 0 (fun t => changePayload t cause frm dst len entry dur)
      = pushQ2 s 7 (flagsOf s + 0) 0 (changePayload s cause frm dst len entry dur) := by
    unfold pushRecord
    rw [alone, fits]
    rfl
  unfold pushChange
  rw [files, alone]
  exact ⟨_, _, _, rfl, rfl, rfl⟩

/-- The bytes of a record that tell its type and the head of its payload (Table 14-2). -/
theorem recordOf_head {r : Record} {s : State} {type seq flags src : Nat} {a b c d : Byte} {l : List Byte}
    (h : r = recordOf s type seq flags src (a :: b :: c :: d :: l)) :
    r[1] = BitVec.ofNat 8 (16 + type) ∧ r[8] = a ∧ r[9] = b ∧ r[10] = c ∧ r[11] = d := by
  rw [h]
  unfold recordOf
  simp only [Vector.getElem_ofFn]
  exact ⟨rfl, rfl, rfl, rfl, rfl⟩

/-- Without a trip of detector 3 and outside a start, a fermata's end files its CAUSE 3 record and no more (R96). -/
theorem fermataRecords_quiet {s : State} (quiet : (s.det 3).pending = false) (started : s.cond.starting = false) (f : Fermata) (frm dst dur : Nat) :
    fermataRecords s f frm dst dur = pushChange s 3 frm dst f.len 0 dur := by
  unfold fermataRecords
  extract_lets d t
  have same : t = s := if_neg (Bool.eq_false_iff.mp quiet)
  rw [same]
  exact if_neg (Bool.eq_false_iff.mp started)

theorem changePayload_head (s : State) (cause frm dst len entry dur : Nat) : ∃ l, changePayload s cause frm dst len entry dur =
    BitVec.ofNat 8 cause :: BitVec.ofNat 8 (frm + 8 * dst) :: BitVec.ofNat 8 (min len 65535) :: BitVec.ofNat 8 (min len 65535 / 256) :: l :=
  ⟨_, rfl⟩

section
variable (s : State) (bar : BitVec 16)

theorem entered_frame : entered s bar = coding (opening s bar (opened s bar)) (entered s bar) := by
  rw [← opened_frame]
  exact coded_frame _ _

/-- What slot 0 leaves of `s` for a fermata's record. -/
theorem linkedBar_reads : (linkedBar s bar).cond.starting = s.cond.starting ∧ (linkedBar s bar).cond.state = (beginBar s bar false).cond.state
    ∧ ((linkedBar s bar).det 3).pending = (s.det 3).pending := by
  have link : linkedBar s bar = relinked (entered s bar) (linkedBar s bar) := links_linkedBar s bar
  have starts : (linkedBar s bar).cond.starting = (entered s bar).cond.starting := (congrArg (fun x => x.cond.starting) link :)
  have started : (entered s bar).cond.starting = s.cond.starting := (congrArg (fun x => x.cond.starting) (entered_frame s bar) :)
  have state : (linkedBar s bar).cond.state = (entered s bar).cond.state := (congrArg (fun x => x.cond.state) link :)
  have dets : (linkedBar s bar).dets = (opened s bar).dets := (Links.dets (links_linkedBar s bar)).trans (coded_dets _ _)
  refine ⟨starts.trans started, state.trans (beginBar_cond s bar).1.symm, ?_⟩
  rw [det_of_dets dets 3]
  exact opened_pending_other s bar (by decide)

/-- Without link, slot 0 leaves the ring of `s`. -/
theorem linkedBar_ring (off : s.duet.link = .off) : (linkedBar s bar).port.ring = s.port.ring ∧ (linkedBar s bar).duet.link = .off := by
  have duet : (entered s bar).duet = s.duet := (congrArg State.duet (entered_frame s bar) :)
  have port : (entered s bar).port = s.port := (congrArg State.port (entered_frame s bar) :)
  obtain ⟨ring, link⟩ := duetSlotZero_off (s := entered s bar) (by rw [duet, off]) s.metro.len
  rw [port] at ring
  unfold linkedBar
  exact ⟨ring, link⟩

end

theorem Planes.port {s t : State} (h : Planes s t) : t.port = s.port := by
  have e : t = replaned s t := h
  exact (congrArg State.port e :)

/-- The CAUSE 3 record of a fermata of `len` slots that ends between the states `frm` and `dst` (R96, Table 14-12). -/
def EndRecord (frm dst len : Nat) (e : RingEntry) : Prop :=
  e.st = .enqueued ∧ e.data[1] = 0x17 ∧ e.data[8] = 3 ∧ (e.data[9]).toNat = frm + 8 * dst
    ∧ (e.data[10]).toNat + 256 * (e.data[11]).toNat = min len 65535

/-- A fermata's end files its record in the ring of a module without link, when nothing else waits for its own. -/
theorem fermataRecords_ring {s : State} (off : s.duet.link = .off) (quiet : (s.det 3).pending = false) (started : s.cond.starting = false)
    (room : s.port.ring.length < 64) (f : Fermata) {frm dst : Nat} (small : frm < 4) (low : dst < 4) (dur : Nat) :
    ∃ e, (fermataRecords s f frm dst dur).port.ring = s.port.ring ++ [e] ∧ EndRecord frm dst f.len e := by
  obtain ⟨e, seq, flags, files, st, data⟩ := pushChange_ring off room 3 frm dst f.len 0 dur
  obtain ⟨l, payload⟩ := changePayload_head s 3 frm dst f.len 0 dur
  rw [payload] at data
  obtain ⟨type, cause, states, first, second⟩ := recordOf_head data
  rw [fermataRecords_quiet quiet started]
  refine ⟨e, files, st, type, cause, ?_, ?_⟩
  · rw [states, BitVec.toNat_ofNat]
    omega
  · rw [first, second, BitVec.toNat_ofNat, BitVec.toNat_ofNat]
    omega

/-- The record of a fermata's end, in a module without link and without an earlier record to file. -/
theorem beginBar_record {s : State} {f : Fermata} (h : s.fermata = some f) (released : f.released = true) (off : s.duet.link = .off)
    (quiet : (s.det 3).pending = false) (started : s.cond.starting = false) (room : s.port.ring.length < 64) (bar : BitVec 16) :
    ∃ e, (beginBar s bar false).port.ring = s.port.ring ++ [e] ∧ EndRecord s.st (beginBar s bar false).st f.len e := by
  obtain ⟨starts, state, pending⟩ := linkedBar_reads s bar
  obtain ⟨ring, link⟩ := linkedBar_ring s bar off
  obtain ⟨port, _⟩ := resumedBar_released bar h released
  have frm : (opened s bar).st = s.st := congrArg PState.num (opened_reads s bar).2.2.1
  have dst : (linkedBar s bar).st = (beginBar s bar false).st := congrArg PState.num state
  have kept : (beginBar s bar false).port = (resumedBar s bar).port := by
    rw [beginBar_eq_marked]
    exact Planes.port (planes_marked _ _)
  rw [kept, port, frm, dst, ← ring]
  rw [← ring] at room
  have low := st_lt s
  have high := st_lt (beginBar s bar false)
  generalize linkedBar s bar = x at *
  exact fermataRecords_ring (s := unheld x) link (pending.trans quiet) (starts.trans started) room f low high _

/-- No schedule runs in fermata. -/
theorem runsSchedule_fermata {s : State} {f : Fermata} (h : s.fermata = some f) : runsSchedule s = false := by
  unfold runsSchedule
  rw [h]
  exact Bool.and_false _

theorem fermataAtBarStart : Part.FermataAtBarStart := by
  refine ⟨fun s f done last not0 runs h released begins reads => ?_, fun s f done last not0 runs h held begins reads => ?_⟩
  · have b := begun (readIn s) (s.aon.bar + 1)
    have resumed : (readIn s).fermata.any (·.released) = true := by
      rw [show (readIn s).fermata = some f from h]
      exact released
    obtain ⟨_, exact_, none⟩ := resumedBar_released (s := readIn s) (s.aon.bar + 1) h released
    refine ⟨_, exec_barStart done last not0 runs begins reads, (beginBar_fermata _ _).trans none, b.bar, b.slot, fun n next wakes => ?_, fun sched => ?_,
      fun off quiet started room => beginBar_record (s := readIn s) h released off quiet started room _⟩
    · exact (beginBar_next (readIn s) _ (by rw [resumed]; exact Bool.and_false _) next wakes).1
    · rw [beginBar_eq_marked] at sched ⊢
      exact marked_exact exact_ sched
  · have b := begun (readIn s) (s.aon.bar + 1)
    have goesOn : (readIn s).fermata.any (·.released) = false := by
      rw [show (readIn s).fermata = some f from h]
      exact held
    have same : (beginBar (readIn s) (s.aon.bar + 1) false).fermata = some f := by
      rw [beginBar_fermata]
      exact (resumedBar_held _ goesOn).trans h
    obtain ⟨state, _, next⟩ := beginBar_same (readIn s) (s.aon.bar + 1) (.inl (by rw [goesOn, show (readIn s).fermata = some f from h]; rfl))
    refine ⟨_, exec_barStart done last not0 runs begins reads, same, b.bar, b.slot, ?_, ?_, state, next, ?_, fun c => ?_⟩
    · rw [beginBar_eq_marked, marked_sched]
      exact runsSchedule_fermata ((resumedBar_held _ goesOn).trans h)
    · rw [b.overScaled, show (readIn s).fermata = some f from h]
      exact Bool.and_true _
    · rw [b.codes]
      simp [taken, BarCode.take, readIn]
    · rw [b.cues]
      simp

/-! ### The acquisition hold -/

/-- `s` with what the samples of PRIV_N and the junction change, taken from `t`. -/
def sampling (s t : State) : State :=
  { s with
    planeW := t.planeW, planeH := t.planeH, vpix := t.vpix, limiter := t.limiter, priv := t.priv, dets := t.dets, thermal := t.thermal
    cond := { s.cond with dirty := t.cond.dirty } }

/-- From `s` to `t` PRIV_N and the junction have been sampled. -/
def Sampled (s t : State) : Prop := t = sampling s t

theorem Sampled.trans {s t u : State} (a : Sampled s t) (b : Sampled t u) : Sampled s u := by
  unfold Sampled at *
  rw [b, a]
  rfl

theorem Sampled.ite {s a b : State} {c : Prop} [Decidable c] (x : Sampled s a) (y : Sampled s b) : Sampled s (if c then a else b) := by
  split
  · exact x
  · exact y

section
variable (s : State)

/-- The stops of a boundary do not touch what PRIV_N has been sampled as. -/
theorem sampled_applyStops : Sampled s (applyStops s) ∧ (applyStops s).priv.asserted = s.priv.asserted := by
  unfold applyStops
  extract_lets was t _ u v
  have stops : Sampled s u ∧ u.priv.asserted = s.priv.asserted := by
    unfold u
    split
    · exact ⟨rfl, rfl⟩
    · exact ⟨rfl, rfl⟩
  obtain ⟨stopped, asserted⟩ := stops
  clear_value u
  split
  · exact ⟨stopped.trans rfl, asserted⟩
  · exact ⟨stopped, asserted⟩

/-- The hysteresis of PRIV_N (R37). -/
theorem sampled_samplePriv (pad : PadLevel) : Sampled s (samplePriv s pad) ∧ (samplePriv s pad).priv.asserted = (match pad with
    | .low => true
    | .mid => s.priv.asserted
    | .high => false) := by
  unfold samplePriv
  extract_lets p asserted differ count trips change _ t d u
  have sampled : Sampled s t := rfl
  split
  · exact ⟨sampled.trans rfl, rfl⟩
  · exact ⟨sampled, rfl⟩

theorem sampled_sampleThermal (j : Int) : Sampled s (sampleThermal s j) ∧ (sampleThermal s j).thermal.last = j
    ∧ (sampleThermal s j).priv.asserted = s.priv.asserted := by
  unfold sampleThermal
  extract_lets h hot c90 c100 throttle shutdown detail t u v
  have throttles : Sampled s u ∧ u.thermal.last = j ∧ u.priv.asserted = s.priv.asserted := by
    unfold u
    split
    · exact ⟨rfl, rfl, rfl⟩
    · exact ⟨rfl, rfl, rfl⟩
  obtain ⟨sampled, last, asserted⟩ := throttles
  clear_value u
  split
  · exact ⟨sampled.trans rfl, last, asserted⟩
  · exact ⟨sampled, last, asserted⟩

end

theorem acquisitionHold : Part.AcquisitionHold := by
  refine ⟨fun s done last not0 runs follows free equal => ?_, fun s pad j runs hold => ?_, fun s runs hold reads => ?_⟩
  · show execBarStart s = _
    unfold execBarStart
    rw [if_pos (by simp [done, last, not0]), if_neg (by simp [runs]), if_pos (by simp [follows, free, equal])]
  · let held : State :=
      { s with metro := { s.metro with waited := s.metro.waited + 1 }, duet := { s.duet with quiet := min (s.duet.quiet + 1) 65535 } }
    obtain ⟨stops, kept⟩ := sampled_applyStops held
    obtain ⟨privacy, asserted⟩ := sampled_samplePriv (applyStops held) pad
    obtain ⟨junction, last, same⟩ := sampled_sampleThermal (samplePriv (applyStops held) pad) j
    have all : _ = sampling held _ := stops.trans (privacy.trans junction)
    refine ⟨_, if_pos (by simp [runs, hold]), last, (congrArg State.metro all :), (congrArg State.exec all :), (congrArg State.ram all :), ?_⟩
    refine same.trans (asserted.trans ?_)
    cases pad with
    | low => rfl
    | mid => exact kept
    | high => rfl
  · let x : State := { readIn s with metro := { (readIn s).metro with start := s.metro.start + stBarLen s s.st } }
    have b := begun x (s.aon.bar + 1)
    have begins : exec .acquisitionHoldTimeout s = .next (beginBar x (s.aon.bar + 1) false) := by
      show execAcquisitionHoldTimeout s = _
      unfold execAcquisitionHoldTimeout
      rw [if_pos (by simp [runs, hold]), startBar_none s _ reads]
      rfl
    refine ⟨_, begins, b.hold, b.slot, b.slot0, b.bar, b.start.trans ?_⟩
    show s.metro.start + stBarLen s s.st + s.metro.len = _
    omega

/-- Settles O35: a bar start is a chain of stages, each with its frame; cues, staves, codes and context are read off the stage that sets them. -/
theorem barBegins : Obligations.BarBegins := ⟨barStart, lateAtBarEnd, fermataAtBarStart, acquisitionHold⟩

end Sys2Proof.BarStart
end

section
/-!
Flailo's answers (R55, R324, R325, Tables 16-10 and 16-11): the checks that every command passes, the length of a digest, the addresses of READ, and O58.
-/
namespace Sys2Proof.FlailoWire

open Sys2Proof.Machine Sys2Proof.Safety

/-! ### The checks of every command -/

section
variable {s : State} {op : Byte} {h : FlailoHead} {lenOk : Bool} {act : State → State}

theorem command_off (off : s.cond.phase ≠ .flailo ∨ s.nvm.sealed = true) : command s op h lenOk act = s := by
  unfold command
  exact if_pos (by simpa using off)

theorem command_badCrc (on : s.cond.phase = .flailo) (unsealed : s.nvm.sealed = false) (crc : crc16 (commandBytes op h) ≠ h.crc.toNat) :
    command s op h lenOk act = respond s .badCrc [] := by
  unfold command
  rw [if_neg (by simp [on, unsealed]), if_pos crc]

theorem command_taken (takes : Takes s op h) : command s op h lenOk act = if lenOk then act s else respond s .badArg [] := by
  obtain ⟨on, unsealed, crc⟩ := takes
  unfold command
  rw [if_neg (by simp [on, unsealed]), if_neg (not_not.2 crc)]
  cases lenOk with
  | true => rfl
  | false => rfl

end

/-- An answer of a status alone. -/
theorem respond_code {x : Status} {b : Byte} (s : State) (code : x.code = b) :
    respond s x [] = { s with flailo := { s.flailo with response := b :: beBytes 2 (crc16 [b]) } } := by
  simp only [respond, code, List.cons_append, List.nil_append]

theorem wellFormed_next {i : Instr} (wf : i.wf = true) (name : String) (t : State) : wellFormed i name t = .next t := if_pos wf

/-- Every command of the protocol passes the same checks before it acts; the six whose row has n = 0 demand an empty length. -/
theorem exec_command {c : Instr} {op : Byte} {h : FlailoHead} (names : commandIn c = some (op, h)) (wf : c.wf = true) :
    ∃ (lenOk : Bool) (act : State → State), (op ∈ [0x02, 0x03, 0x04, 0x05, 0x07, 0x08] → lenOk = decide (h.len = 0))
      ∧ ∀ s, exec c s = .next (command s op h lenOk act) := by
  unfold commandIn at names
  split at names
  case h_9 op' h' =>
    split at names
    · exact nomatch names
    · rename_i unknown
      cases names
      refine ⟨true, _, fun k => absurd ?_ unknown, fun s => (wellFormed_next wf _ _).trans (congrArg _ (if_neg (by simpa using unknown)))⟩
      simp only [List.mem_cons, List.not_mem_nil, or_false] at k
      rcases k with rfl | rfl | rfl | rfl | rfl | rfl <;> decide
  case h_10 => exact nomatch names
  case h_1 =>
    cases names
    exact ⟨_, _, fun k => absurd k (by decide), fun s => wellFormed_next wf _ _⟩
  case h_6 =>
    cases names
    exact ⟨_, _, fun k => absurd k (by decide), fun s => wellFormed_next wf _ _⟩
  all_goals
    cases names
    exact ⟨_, _, fun _ => rfl, fun s => wellFormed_next wf _ _⟩

theorem commandChecks : Part.CommandChecks := by
  intro s c op h names wf
  obtain ⟨lenOk, act, empty, run⟩ := exec_command names wf
  refine ⟨fun off => ?_, fun on unsealed crc => ?_, fun takes row data => ?_⟩
  · rw [run, command_off off]
  · rw [run, command_badCrc on unsealed crc, respond_code s (b := 0x01) rfl]
  · rw [run, command_taken takes, empty row, if_neg (by simpa using data), respond_code s (b := 0x03) rfl]

/-! ### VERIFY -/

/-- A block leaves the eight words of a hash value. -/
theorem hashBlock_length {ks v block : List Word} (h : v.length = 8) : (hashBlock ks v block).length = 8 := by
  have rounds (ws : List Word) : ∀ u : List Word, u.length = 8 → (ws.foldl hashRound u).length = 8 := by
    induction ws with
    | nil => exact fun u e => e
    | cons w ws ih => exact fun u _ => ih _ rfl
  unfold hashBlock
  rw [List.length_zipWith, rounds _ v h, h]
  rfl

theorem sha256_length (m : List Byte) : (sha256 m).length = 32 := by
  have words (bs : List (List Word)) : ∀ v : List Word, v.length = 8 → (bs.foldl (hashBlock (rootFractions 3 smallPrimes)) v).length = 8 := by
    induction bs with
    | nil => exact fun v e => e
    | cons b bs ih => exact fun v e => ih _ (hashBlock_length e)
  have start : (rootFractions 2 (smallPrimes.take 8)).length = 8 := by
    rw [rootFractions, List.length_map]
    decide
  unfold sha256
  rw [List.length_flatMap]
  simp only [beBytes, leBytes, List.length_reverse, List.length_cons, List.length_nil, List.map_const', List.sum_replicate, words _ _ start]
  rfl

/-- The body's bytes lie behind the header of the selected image, as many as its length says. -/
theorem bodyBytes_whole (s : State) : bodyBytes s 0 (bodyLen s) = (List.range (bodyLen s)).map fun i => s.nvm.read (imageBase s.sel + 64 + i) := by
  refine List.map_congr_left fun i m => ?_
  rw [Nat.zero_add]
  exact if_pos (List.mem_range.1 m)

/-- A valid image has the digest that its header names. -/
theorem imageFault_none_digest {s : State} {exit : Bool} (valid : imageFault s exit = none) : sha256 (bodyBytes s 0 (bodyLen s)) = headerDigest s.nvm s.sel := by
  unfold imageFault at valid
  by_cases digest : digestOk s = true
  · exact of_decide_eq_true digest
  · simp only [digest] at valid
    split at valid
    · exact nomatch valid
    · split at valid
      · exact nomatch valid
      · exact nomatch valid

/-- The slot that VERIFY's address names: its base in the shared space. -/
theorem imageBase_selecting (s : State) (upper : Bool) :
    imageBase (selecting s (if upper then 7 else 6)).sel = if upper then 0x500000 else 0x400000 := by
  cases upper with
  | true => exact show imageBase 7 = 0x500000 by decide
  | false => exact show imageBase 6 = 0x400000 by decide

/-- The answer of VERIFY for the state in which its slot is selected. -/
def verified (s u : State) : State :=
  if slotEmpty u || !headerOk u then respond s .digestBad ((List.range 32).map Config.digestOfNoBody)
  else respond s (if (imageFault u false).isNone then .ok else .digestBad) (sha256 (bodyBytes u 0 (bodyLen u)))

theorem exec_verify {s : State} {h : FlailoHead} (data : h.data = []) (len : h.len = 0) (takes : Takes s 0x02 h) :
    exec (.verify h) s = .next (verified s (selecting s (if h.addr.getLsbD 20 then 7 else 6))) := by
  refine (wellFormed_next (by simp [Instr.wf, FlailoHead.dataOk, data, len]) _ _).trans ?_
  rw [command_taken takes, if_pos (by simpa using len)]
  rfl

/-- What VERIFY answers: nothing of a slot without a body, else the digest of the body, with OK exactly for a valid image. -/
theorem verified_cases (s u : State) : ∃ x bs,
    verified s u = { s with flailo := { s.flailo with response := (x :: bs) ++ beBytes 2 (crc16 (x :: bs)) } } ∧ bs.length = 32
      ∧ (slotEmpty u = true ∨ headerOk u = false → x = 0x05)
      ∧ (slotEmpty u = false → headerOk u = true →
          bs = sha256 (bodyBytes u 0 (bodyLen u)) ∧ (x = 0 ∨ x = 0x05) ∧ (x = 0 ↔ imageFault u false = none)) := by
  unfold verified
  by_cases bad : slotEmpty u = true ∨ headerOk u = false
  · rw [if_pos (by simpa using bad)]
    refine ⟨_, _, rfl, by simp, fun _ => rfl, fun full ok => ?_⟩
    rcases bad with e | e
    · exact absurd (e.symm.trans full) (by decide)
    · exact absurd (e.symm.trans ok) (by decide)
  · rw [if_neg (by simpa using bad)]
    refine ⟨_, _, rfl, sha256_length _, fun k => absurd k bad, fun _ _ => ⟨rfl, ?_⟩⟩
    cases imageFault u false with
    | none => exact ⟨.inl rfl, fun _ => rfl, fun _ => rfl⟩
    | some f => exact ⟨.inr rfl, fun e => absurd e (show Status.digestBad.code ≠ 0 by decide), nofun⟩

theorem verifyAnswers : Part.VerifyAnswers := by
  intro s h data len takes base u digest
  have baseEq : imageBase u.sel = base := imageBase_selecting s _
  have body : sha256 (bodyBytes u 0 (bodyLen u)) = digest := by
    have nvm : u.nvm = s.nvm := rfl
    rw [bodyBytes_whole, bodyLen, baseEq, nvm]
  obtain ⟨x, bs, run, length, bad, good⟩ := verified_cases s u
  refine ⟨x, bs, (exec_verify data len takes).trans (congrArg _ run), length, bad, fun full ok => ?_⟩
  obtain ⟨bytes, status, valid⟩ := good full ok
  refine ⟨bytes.trans body, status, valid, fun k => ?_⟩
  rw [bytes, imageFault_none_digest (valid.1 k), headerDigest, baseEq]
  rfl

/-! ### READ -/

/-- The addresses of Table 16-10: score OTP from 0, calibration OTP from 0x800000, up to 4096 bytes within either. -/
theorem readAddress_eq {a n : Nat} (h : a < 2 ^ 24) : readAddress a n =
    if 1 ≤ n ∧ n ≤ 4096 then
      if a < 0x200000 ∧ a + n ≤ 0x200000 then some (0x400000 + a)
      else if 0x800000 ≤ a ∧ a < 0x802000 ∧ a - 0x800000 + n ≤ 0x2000 then some (0x600000 + (a - 0x800000))
      else none
    else none := by
  unfold readAddress bitAt field calBase otpBase
  simp only [Bool.or_eq_true, Bool.and_eq_true, decide_eq_true_eq]
  by_cases size : 1 ≤ n ∧ n ≤ 4096
  · rw [if_neg (by omega), if_pos size]
    by_cases upper : 0x800000 ≤ a
    · rw [if_pos (by omega), if_neg (c := a < 0x200000 ∧ _) (by omega)]
      by_cases cal : a < 0x802000 ∧ a - 0x800000 + n ≤ 0x2000
      · rw [if_pos (by omega), if_pos ⟨upper, cal⟩, Option.some.injEq]
        omega
      · rw [if_neg (by omega), if_neg fun k => cal k.2]
    · rw [if_neg (by omega), if_neg (c := 0x800000 ≤ a ∧ _) fun k => upper k.1]
      by_cases score : a < 0x200000 ∧ a + n ≤ 0x200000
      · rw [if_pos (by omega), if_pos score, Option.some.injEq]
        omega
      · rw [if_neg (by omega), if_neg score]
  · rw [if_pos (by omega), if_neg size]

theorem readAnswers : Part.ReadAnswers := by
  intro s h data takes a n score cal
  have run : exec (.read h) s = .next (match readAddress a n with
      | some p => respond s .ok (s.nvm.bytes p n)
      | none => respond s .badArg []) := by
    refine (wellFormed_next (by simp [Instr.wf, data]) _ _).trans ?_
    rw [command_taken takes]
    rfl
  rw [readAddress_eq h.addr.isLt] at run
  by_cases size : 1 ≤ n ∧ n ≤ 4096
  · rw [if_pos size] at run
    by_cases inScore : score
    · rw [if_pos inScore] at run
      refine ⟨_, _, run, fun _ _ _ => ⟨rfl, rfl⟩, fun _ _ c => ?_, fun k => ?_⟩
      · obtain ⟨below, -⟩ := inScore
        obtain ⟨above, -⟩ := c
        omega
      · rcases k with k | k | k
        · omega
        · omega
        · exact absurd inScore k.1
    · rw [if_neg inScore] at run
      by_cases inCal : cal
      · rw [if_pos inCal] at run
        refine ⟨_, _, run, fun _ _ k => absurd k inScore, fun _ _ _ => ⟨rfl, rfl⟩, fun k => ?_⟩
        rcases k with k | k | k
        · omega
        · omega
        · exact absurd inCal k.2
      · rw [if_neg inCal] at run
        exact ⟨_, _, run, fun _ _ k => absurd k inScore, fun _ _ k => absurd k inCal, fun _ => ⟨rfl, rfl⟩⟩
  · rw [if_neg size] at run
    exact ⟨_, _, run, fun l m => absurd ⟨l, m⟩ size, fun l m => absurd ⟨l, m⟩ size, fun _ => ⟨rfl, rfl⟩⟩

/-! ### INFO and unknown opcodes -/

theorem infoAnswers : Part.InfoAnswers := by
  refine ⟨fun s h data len takes => ⟨Config.infoStates s.nvm.sealed (s.nvm.marks.contains (imageBase 6 / 8)) (s.nvm.marks.contains (imageBase 7 / 8)), ?_⟩,
    fun s op h data unknown takes => ?_⟩
  · refine (wellFormed_next (by simp [Instr.wf, FlailoHead.dataOk, data, len]) _ _).trans ?_
    rw [command_taken takes, if_pos (by simpa using len)]
    rfl
  · refine (wellFormed_next (by simpa [Instr.wf, FlailoHead.dataOk] using data) _ _).trans ?_
    have outside : ¬(1 ≤ op.toNat ∧ op.toNat ≤ 8) := by
      rcases unknown with rfl | high
      · decide
      · omega
    rw [if_neg (by simpa using outside), command_taken takes, if_pos rfl, respond_code s (b := 0x02) rfl]

/-- Settles O58: every command passes the same checks, and each answer is read off the branch that its slot, address or opcode takes. -/
theorem flailoAnswers : Obligations.FlailoAnswers := ⟨verifyAnswers, readAnswers, infoAnswers, commandChecks⟩

end Sys2Proof.FlailoWire
end

section
/-!
Supervision and fermata (R71, R95 to R98, R342): what a trip that calls for a fermata changes, the boundary at which one begins, its end, and O41.
-/
namespace Sys2Proof.FermataSteps

open Sys2Proof.Machine Sys2Proof.Laws Sys2Proof.Frames

/-! ### Warnings and undervoltage -/

/-- A warning is one more in the window. -/
theorem countWarning_sum (s : State) (inj : Bool) : (countWarning s inj).aon.warnings.sum = s.aon.warnings.sum + 1 := by
  unfold countWarning
  dsimp only
  rw [trip_changes]
  cases s.aon.warnings with
  | nil => rfl
  | cons a r => simp only [List.sum_cons]; omega

/-- The ninth warning of the window calls for the cap (R98). -/
theorem countWarning_capNext {s : State} (uncapped : s.aon.warnCap = false) (eight : 8 ≤ s.aon.warnings.sum) (inj : Bool) :
    (countWarning s inj).aon.capNext = true := by
  have sum := countWarning_sum s inj
  have cap : (countWarning s inj).aon.capNext
      = (s.aon.capNext || (!s.aon.warnCap && decide ((countWarning s inj).aon.warnings.sum > 8))) := rfl
  rw [cap, uncapped, sum, decide_eq_true (by omega), Bool.not_false, Bool.and_true, Bool.or_true]

theorem countWarning_pending (s : State) (inj : Bool) : ((countWarning s inj).det 1).pending = true := (trip_det _ 1 inj 0 (by decide)).1

/-- A call for a fermata changes the fermata, the one to come and the ramp. -/
theorem callFermata_frame (s : State) (warn : Bool) : callFermata s warn = { s with
    fermata := (callFermata s warn).fermata, fermataNext := (callFermata s warn).fermataNext, limiter := (callFermata s warn).limiter } := by
  unfold callFermata
  split
  · rfl
  · rfl

/-- Outside a fermata one is called for. -/
theorem callFermata_none {s : State} (h : s.fermata = none) (warn : Bool) :
    (callFermata s warn).fermataNext = some (warn || s.fermataNext.getD false) ∧ (callFermata s warn).fermata = none := by
  unfold callFermata
  rw [h]
  exact ⟨rfl, rfl⟩

/-- In a fermata the wait for its end begins anew, and a ramp is held. -/
theorem callFermata_some {s : State} {f : Fermata} (h : s.fermata = some f) (warn : Bool) :
    (callFermata s warn).fermata = some { f with released := false } ∧ (callFermata s warn).limiter.paused = s.limiter.on := by
  unfold callFermata
  rw [h]
  exact ⟨rfl, rfl⟩

/-- The state in which a warning is taken: VIN counts as low where the AON domain is on. -/
def lowered (s : State) : State := { s with supply := { s.supply with low := s.supply.low || s.aon.on } }

theorem exec_vwarnTrip_running {s : State} (runs : s.running = true) :
    exec .vwarnTrip s = .next (callFermata (countWarning (lowered s) false) true) := by
  have counts : countsWarnings (lowered s) = true := by
    unfold countsWarnings lowered
    rw [show s.cond.phase = .running from of_decide_eq_true runs]
  have still : (countWarning (lowered s) false).running = true := runs
  show execVwarnTrip s = _
  unfold execVwarnTrip
  change (if !countsWarnings (lowered s) then _ else
    Host.Outcome.next (if (countWarning (lowered s) false).running then callFermata (countWarning (lowered s) false) true else _)) = _
  rw [counts, still]
  rfl

theorem exec_vwarnTrip_idle {s : State} (idle : s.running = false) :
    exec .vwarnTrip s = .next (if countsWarnings (lowered s) then countWarning (lowered s) false else lowered s) := by
  have still : (countWarning (lowered s) false).running = false := idle
  show execVwarnTrip s = _
  unfold execVwarnTrip
  change (if !countsWarnings (lowered s) then _ else
    Host.Outcome.next (if (countWarning (lowered s) false).running then _ else countWarning (lowered s) false)) = _
  rw [still]
  cases countsWarnings (lowered s) with
  | true => rfl
  | false => rfl

theorem supervision : Part.Supervision := by
  refine ⟨fun s on => ?_, fun s runs => ?_, fun s runs => ?_⟩
  · have low : (lowered s).supply.low = true := by simp [lowered, on]
    cases runs : s.running with
    | true =>
      refine ⟨_, exec_vwarnTrip_running runs, ?_, nofun⟩
      rw [callFermata_frame]
      exact low
    | false =>
      refine ⟨_, exec_vwarnTrip_idle runs, ?_⟩
      split
      · exact ⟨low, fun _ => ⟨rfl, rfl⟩⟩
      · exact ⟨low, fun _ => ⟨rfl, rfl⟩⟩
  · let u := countWarning (lowered s) false
    have frame := callFermata_frame u true
    refine ⟨_, exec_vwarnTrip_running runs, ?_, ?_, fun uncapped eight => ?_, fun none => ?_, fun f some => callFermata_some (s := u) some true,
      (congrArg State.exec frame :), (congrArg State.ram frame :), (congrArg State.metro frame :)⟩
    · exact (congrArg (fun x : State => x.aon.warnings.sum) frame :).trans (countWarning_sum (lowered s) false)
    · exact (congrArg (fun x : State => (x.det 1).pending) frame :).trans (countWarning_pending (lowered s) false)
    · exact (congrArg (fun x : State => x.aon.capNext) frame :).trans (countWarning_capNext (s := lowered s) uncapped eight false)
    · exact callFermata_none (s := u) none true
  · let u := trip s 3 false (undervoltageDetail s)
    have frame := callFermata_frame u false
    have run : exec .vcoreUndervoltage s = .next (callFermata u false) := congrArg Host.Outcome.next (if_pos runs)
    refine ⟨_, run, ?_, (congrArg State.aon frame :), fun none => ?_, fun f some => callFermata_some (s := u) some false,
      (congrArg State.exec frame :), (congrArg State.ram frame :), (congrArg State.metro frame :)⟩
    · exact (congrArg (fun x : State => (x.det 3).pending) frame :).trans (trip_det s 3 false _ (by decide)).1
    · exact callFermata_none (s := u) none false

/-! ### A fermata begins -/

/-- The deadline check at the boundary that begins a fermata changes detectors only. -/
theorem checkLast_frame (s : State) : checkLast s = { s with dets := (checkLast s).dets } := by
  unfold checkLast
  extract_lets d
  split
  · rfl
  · split
    · rfl
    · rfl

/-! ### A fermata is released -/

theorem SameScore.peakUA {s t : State} (h : SameScore s t) : peakUA t = peakUA s := by
  unfold Machine.peakUA stPeak
  rw [h.limU]

theorem SameScore.isUpward {s t : State} (h : SameScore s t) : isUpward t = isUpward s := by
  unfold Machine.isUpward stPlane stBin
  rw [SameScore.peakUA h, h.limU]

theorem takeChoice_frame (s : State) (new : PState) : takeChoice s new = { s with limiter := (takeChoice s new).limiter } := by
  unfold takeChoice
  split
  · rfl
  · split
    · rfl
    · split
      · rfl
      · rfl

/-- A ramp that runs is planned anew towards the state chosen. -/
theorem takeChoice_replans {s : State} (armed : s.limiter.armed = true) (on : s.limiter.on = true) (new : PState) :
    takeChoice s new = replanRamp s new := by
  unfold takeChoice
  rw [if_neg (by simp [armed]), if_pos on]

/-- With no ramp running, one starts towards the state chosen where that lies upward. -/
theorem takeChoice_starts {s : State} {new : PState} (armed : s.limiter.armed = true) (off : s.limiter.on = false)
    (upward : isUpward s s.st new.num = true) : takeChoice s new = startRamp s s.st new true := by
  unfold takeChoice
  rw [if_neg (by simp [armed]), if_neg (by simp [off]), if_pos upward]

/-- No ramp is called for any more, and a released one stays released. -/
theorem takeChoice_settles (s : State) (new : PState) :
    (takeChoice s new).limiter.armed = false ∧ (s.limiter.paused = false → (takeChoice s new).limiter.paused = false) := by
  unfold takeChoice
  split
  · rename_i idle
    exact ⟨by simpa using idle, id⟩
  · split
    · exact ⟨rfl, id⟩
    · split
      · exact ⟨rfl, fun _ => rfl⟩
      · exact ⟨rfl, id⟩

section
variable {s : State} {f : Fermata}

/-- The state in which a fermata's release takes up the choice of slot 444. -/
def released (s : State) (f : Fermata) : State :=
  { s with
    supply := { s.supply with low := false }, fermata := some { f with released := true }, limiter := { s.limiter with paused := false } }

/-- The state in which a fermata whose bar has chosen Tacet is left. -/
def raised (s : State) : State := { s with supply := { s.supply with low := false } }

theorem exec_fermataEnd (holds : s.fermata = some f) (waits : f.released = false) (runs : s.running = true) :
    exec .fermataEnd s = .next (if s.cond.next = some .tacet then leaveForTacet (raised s) f else
      match s.cond.next with
      | some n => takeChoice (released s f) n
      | none => released s f) := by
  have run : exec .fermataEnd s = execFermataEnd s := rfl
  unfold execFermataEnd at run
  dsimp only at run
  rw [holds] at run
  dsimp only at run
  rw [if_pos (by rw [waits, Bool.not_false, Bool.and_true]; exact runs)] at run
  rw [run]
  split
  · rfl
  · rfl

end

/-! ### A fermata ends in Tacet -/

/-- Tacet entry begins with VPIX above 0.2 V: step 6 runs. -/
theorem beginTacetEntry_above {s : State} (above : s.vpix.above = true) :
    (beginTacetEntry s).cond.phase = .tacetEntry 6 := by
  unfold beginTacetEntry
  extract_lets a _ _ _ _ b
  rw [if_pos (show b.vpix.above = true from above)]

/-- With VPIX low already, step 5 runs: nothing is in flight, and a ramp leads down to 0. -/
theorem beginTacetEntry_low {s : State} (low : s.vpix.above = false) :
    (beginTacetEntry s).cond.phase = .tacetEntry 5 ∧ (beginTacetEntry s).exec.q0 = [] ∧ (beginTacetEntry s).exec.soli = []
      ∧ (beginTacetEntry s).limiter.up = false ∧ (beginTacetEntry s).limiter.iNew = 0 := by
  unfold beginTacetEntry
  extract_lets a _ _ _ _ b
  rw [if_neg (show ¬b.vpix.above = true from fun k => absurd (k.symm.trans low) (by decide))]
  exact ⟨rfl, rfl, rfl, rfl, rfl⟩

/-- Either way readout has stopped, the LDO is off and no fermata is left. -/
theorem beginTacetEntry_stops (s : State) :
    (beginTacetEntry s).fermata = none ∧ (beginTacetEntry s).supply.low = s.supply.low ∧ (beginTacetEntry s).planeW.reading = false
      ∧ (beginTacetEntry s).planeH.reading = false ∧ (beginTacetEntry s).vpix.ldo = false := by
  unfold beginTacetEntry
  extract_lets a _ _ _ _ b
  split
  · exact ⟨rfl, rfl, rfl, rfl, rfl⟩
  · exact ⟨rfl, rfl, rfl, rfl, rfl⟩

theorem fermataSequence : Part.FermataSequence := by
  refine ⟨fun s w called runs fixed issued => ?_, fun s f holds waits runs stays => ?_, fun s f holds waits runs chosen => ?_⟩
  · have run : exec .fermataEntry s = execFermataEntry s := rfl
    unfold execFermataEntry at run
    rw [called] at run
    dsimp only at run
    rw [if_pos (by simp [runs, fixed, issued]), checkLast_frame] at run
    refine ⟨_, run, rfl, rfl, rfl, rfl, rfl, rfl, fun c => Vector.getElem_replicate _, rfl, rfl, rfl, rfl, rfl, ?_,
      rfl, rfl, rfl, rfl, rfl, rfl, rfl⟩
    simp only [List.forall_mem_cons, List.not_mem_nil, false_implies, implies_true, and_true]
    exact ⟨rfl, rfl, rfl, rfl⟩
  · have run := exec_fermataEnd holds waits runs
    rw [if_neg stays] at run
    cases chosen : s.cond.next with
    | none =>
      rw [chosen] at run
      exact ⟨_, run, rfl, rfl, rfl, rfl, nofun⟩
    | some n =>
      rw [chosen] at run
      dsimp only at run
      have frame := takeChoice_frame (released s f) n
      have score : SameScore s (released s f) := ⟨rfl, rfl⟩
      obtain ⟨settled, unpaused⟩ := takeChoice_settles (released s f) n
      refine ⟨_, run, (congrArg State.fermata frame :), unpaused rfl, (congrArg State.exec frame :), (congrArg (fun x => x.supply.low) frame :), ?_⟩
      intro m e armed
      cases e
      refine ⟨settled, fun on => ?_, fun off upward => ?_⟩
      · rw [takeChoice_replans (s := released s f) armed on]
        exact ⟨on, rfl, rfl, rfl, congrFun (SameScore.peakUA score) _, rfl⟩
      · rw [takeChoice_starts (s := released s f) armed off (by rw [SameScore.isUpward score]; exact upward)]
        exact ⟨rfl, rfl, rfl, congrFun (SameScore.peakUA score) _, congrFun (SameScore.peakUA score) _⟩
  · have run := exec_fermataEnd holds waits runs
    rw [if_pos chosen] at run
    let u := newStamp { raised s with fermata := none }
    have filed : _ = refiled u _ := filed_fermataRecords u f (raised s).st 0 (raised s).cond.dur
    have above := (congrArg (fun x => x.vpix.above) filed :)
    obtain ⟨fermata, low, readsW, readsH, ldo⟩ := beginTacetEntry_stops (fermataRecords u f (raised s).st 0 (raised s).cond.dur)
    refine ⟨_, run, fermata, low.trans (congrArg (fun x => x.supply.low) filed :), readsW, readsH, ldo, fun k => ?_, fun k => ?_⟩
    · exact beginTacetEntry_above (above.trans k)
    · exact beginTacetEntry_low (above.trans k)

/-- Settles O41: a trip changes the fermata that it calls for and its own counts; entry, release and the way into Tacet are each read off the state that
the command leaves. -/
theorem warningsAndFermata : Obligations.WarningsAndFermata := ⟨supervision, fermataSequence⟩

end Sys2Proof.FermataSteps
end

section
/-!
The start of a scan (R246, R252), the gesture recogniser scan by scan (R254, Table 13-2), and the fields of the touch summary word (Table 13-3).
-/
namespace Sys2Proof.TouchWord

open Sys2Proof.Machine Sys2Proof.Laws Sys2Proof.Stages Sys2Proof.Frames

/-! ### The start of a scan -/

/-- The mode that a scan takes: noise mode is entered at the charger, four noisy scans of eight, or by force, and left after 64 quiet ones. -/
def startMode (s : State) (chg : Bool) : Bool :=
  if s.touch.noise then chg || s.inject 14 || decide (s.touch.quiet < 64) else chg || decide (4 ≤ noisyCount s.touch) || s.inject 14

/-- The state in which a scan starts: an entry into noise mode has tripped detector 14. -/
def modeTripped (s : State) (chg : Bool) : State :=
  let counted := decide (4 ≤ noisyCount s.touch)
  let detail := (if chg then 1 else 0) + (if counted then 2 else 0) + 65536 * min s.touch.lastNoise 65535
  if !s.touch.noise && startMode s chg then trip s 14 (s.inject 14 && !chg && !counted) (BitVec.ofNat 32 detail) else s

theorem modeTripped_frame (s : State) (chg : Bool) : modeTripped s chg = { s with dets := (modeTripped s chg).dets } := by
  unfold modeTripped
  extract_lets counted detail
  split
  · rfl
  · rfl

theorem modeTripped_pending {s : State} {chg : Bool} (before : s.touch.noise = false) (after : startMode s chg = true) :
    ((modeTripped s chg).det 14).pending = true := by
  unfold modeTripped
  extract_lets counted detail
  rw [if_pos (by rw [before, after]; rfl)]
  exact (trip_det s 14 _ _ (by decide)).1

theorem exec_scanStart {s : State} (chg : Bool) (runs : s.running = true) (free : s.fermata = none) (on : s.touch.on = true)
    (idle : s.touch.scanning = false) :
    exec (.scanStart chg) s = .next { modeTripped s chg with touch := { s.touch with
      scanning := true, chg := chg, scanNoise := startMode s chg, scanSense := s.codes.sense.eff, noise := startMode s chg } } := by
  show execScanStart chg s = _
  unfold execScanStart
  extract_lets +onlyGivenNames t counted forced stays enters detail u noise
  have mode : noise = startMode s chg := by
    unfold noise startMode
    cases before : s.touch.noise with
    | true => simp [stays, enters, t, forced, before]
    | false => simp [stays, enters, t, counted, forced, before]
  have tripped : u = modeTripped s chg := by
    unfold u modeTripped startMode
    cases before : s.touch.noise with
    | true => simp [enters, t, before]
    | false => simp [enters, t, counted, forced, detail, before]
  have same : (modeTripped s chg).touch = s.touch := (congrArg State.touch (modeTripped_frame s chg) :)
  have sense : (modeTripped s chg).codes.sense.eff = s.codes.sense.eff := (congrArg (fun x : State => x.codes.sense.eff) (modeTripped_frame s chg) :)
  rw [if_pos (by rw [runs, free, show t.on = true from on, show t.scanning = false from idle]; rfl), mode, tripped, same, sense]

theorem scanStarts : Part.ScanStarts := by
  intro s chg runs free on idle
  have frame := modeTripped_frame s chg
  refine ⟨_, exec_scanStart chg runs free on idle, rfl, fun before quiet => ?_, fun before quiet => ?_, fun forced => ?_,
    (congrArg State.exec frame :), (congrArg State.ram frame :), (congrArg State.cond frame :), (congrArg State.port frame :)⟩
  · refine ⟨?_, modeTripped_pending before⟩
    rw [startMode, before, quiet, if_neg Bool.false_ne_true, Bool.or_false]
    rfl
  · simp [startMode, before, quiet]
  · simp [startMode, forced]

/-! ### Scans that stop -/

theorem exec_scanComplete {s : State} {chips listen : List (List Int)} {ups : List Upset}
    (wf : (Instr.scanComplete chips ⟨listen, ups⟩).wf = true) (runs : s.running = true) (scans : s.touch.scanning = true)
    (shape : chips.length = if s.touch.scanNoise then 16 else 8) :
    exec (.scanComplete chips ⟨listen, ups⟩) s = .next (withRomErrors s ups (scanResult chips listen)) := by
  show execScanComplete chips ⟨listen, ups⟩ s = _
  unfold execScanComplete
  rw [if_neg (by simp [wf]), if_pos (by simp [runs, scans, shape])]

/-- The measurements of a scan, its threshold (doubled in noise mode), its signals, and the strongest touched node after it. -/
def measures (s : State) (chips : List (List Int)) : List Int :=
  (List.range 128).map fun n => measurement s.touch.scanNoise chips (n / 16) (n % 16)

def scanThreshold (s : State) : Int := if s.touch.scanNoise then 2 * touchThreshold s.touch.scanSense else touchThreshold s.touch.scanSense

def signals (s : State) (chips : List (List Int)) : List Int := (List.range 128).map (signal s (measures s chips))

def nodesAfter (s : State) (chips : List (List Int)) : Vector Node 128 := scanNodes s (scanThreshold s) (measures s chips) (signals s chips)

def bestAfter (s : State) (chips : List (List Int)) : Option Nat := strongest (nodesAfter s chips) (signals s chips)

/-- POS of the strongest node, what the gesture recogniser makes of the scan, and the summary word. -/
def posAfter (s : State) (chips : List (List Int)) : Nat := ((bestAfter s chips).elim 0 (position s (signals s chips))).toNat

def heard (s : State) (chips : List (List Int)) : Gesture × Nat :=
  if (bestAfter s chips).isSome then s.touch.gesture.contact (touchRate s) (posAfter s chips) else s.touch.gesture.free (touchRate s)

def wordAfter (s : State) (chips : List (List Int)) : BitVec 32 :=
  summaryAfter s (bestAfter s chips).isSome ((bestAfter s chips).elim 0 (keyOf s)) (posAfter s chips) (heard s chips).2 s.touch.scanNoise
    ((nodesAfter s chips).any (·.suspect))

/-- What the listen chips say of the noise (R252): the last eight scans, the quiet run and the figure of the latest noisy scan. -/
def noiseAfter (s : State) (listen : List (List Int)) : Touch :=
  let thn := touchThreshold s.touch.scanSense
  let fig := noiseFigure s listen
  let noisy := decide (thn < 2 * (fig : Int))
  { s.touch with
    noisy := (noisy :: s.touch.noisy).take 8
    quiet := if !s.touch.chg && decide (4 * (fig : Int) ≤ thn) then min (s.touch.quiet + 1) 64 else 0
    lastNoise := if noisy then fig else s.touch.lastNoise }

theorem scanResult_eq (chips listen : List (List Int)) (s : State) : scanResult chips listen s = { s with touch := { noiseAfter s listen with
    nodes := nodesAfter s chips, fresh := false, scanning := false, gesture := (heard s chips).1, summary := wordAfter s chips, done := true } } := by
  unfold scanResult wordAfter
  extract_lets t thn th ms ds nodes best pos key rate fig noisy quiet
  have heardHere : (if best.isSome then t.gesture.contact rate pos else t.gesture.free rate) = heard s chips := by
    unfold heard
    rfl
  rw [heardHere]
  have bestHere : best = bestAfter s chips := rfl
  have nodesHere : nodes = nodesAfter s chips := rfl
  have posHere : pos = posAfter s chips := rfl
  clear heardHere
  clear_value best nodes pos
  rw [posHere, nodesHere]
  unfold key
  rw [bestHere]
  generalize heard s chips = p
  obtain ⟨g, event⟩ := p
  rfl

theorem scanResult_scanning (chips listen : List (List Int)) (s : State) : (scanResult chips listen s).touch.scanning = false := by
  rw [scanResult_eq]

theorem retripped_touch (s t : State) : (retripped s t).touch = s.touch := rfl

theorem failingIn_touch (s : State) (ws : List Nat) : (failingIn s ws).touch = s.touch := rfl

theorem scanStopped : Part.ScanStopped := by
  intro s chips listen ups wf runs scans shape errors
  have tripped : _ = retripped _ _ := tripped_withRomErrors s ups (scanResult chips listen) errors
  refine ⟨_, exec_scanComplete wf runs scans shape, withRomErrors_stops s ups _ errors, ?_⟩
  rw [show withRomErrors s ups (scanResult chips listen) = _ from tripped, retripped_touch, failingIn_touch]
  exact scanResult_scanning chips listen _

/-! ### Gestures -/

section
variable (g : Gesture) (rate : Nat) (pos : Int)

/-- The recogniser after one more scan of contact, before it looks for an event. -/
def Gesture.longer : Gesture :=
  if g.len = 0 then { g with len := 1, first := pos, last := pos, exc := 0, held := false, second := g.tapGap.isSome, tapGap := none }
  else { g with len := g.len + 1, last := pos, exc := max g.exc |pos - g.first| }

theorem contact_eq : g.contact rate pos =
    let x := Gesture.longer g pos
    if x.second = true ∧ ((rate + 3) / 4 < x.len ∨ 32 ≤ x.exc) then ({ x with second := false }, 1)
    else if x.len = (4 * rate + 4) / 5 ∧ x.exc < 32 then ({ x with held := true }, 5)
    else (x, 0) := by
  unfold Gesture.contact Gesture.longer tapScans longScans
  simp only [Bool.and_eq_true, Bool.or_eq_true, decide_eq_true_eq, gt_iff_lt, Int.natCast_natAbs]

theorem longer_len : (Gesture.longer g pos).len = g.len + 1 := by
  unfold Gesture.longer
  split
  · rename_i first
    rw [first]
  · rfl

theorem longer_last : (Gesture.longer g pos).last = pos := by
  unfold Gesture.longer
  split
  · rfl
  · rfl

theorem longer_first : (Gesture.longer g pos).first = if g.len = 0 then pos else g.first := apply_ite Gesture.first _ _ _

theorem longer_exc : (Gesture.longer g pos).exc = if g.len = 0 then 0 else max g.exc |pos - g.first| := apply_ite Gesture.exc _ _ _

theorem longer_second : (Gesture.longer g pos).second = if g.len = 0 then g.tapGap.isSome else g.second := apply_ite Gesture.second _ _ _

theorem longer_held : (Gesture.longer g pos).held = if g.len = 0 then false else g.held := apply_ite Gesture.held _ _ _

theorem longer_tapGap : (g.len = 0 → (Gesture.longer g pos).tapGap = none) ∧ (g.len ≠ 0 → (Gesture.longer g pos).tapGap = g.tapGap) := by
  have gap : (Gesture.longer g pos).tapGap = if g.len = 0 then none else g.tapGap := apply_ite Gesture.tapGap _ _ _
  rw [gap]
  exact ⟨fun k => if_pos k, fun k => if_neg k⟩

end

section
variable {g : Gesture} (rate : Nat)

/-- Without contact and without an episode, the gap after a waiting tap grows until the tap reports. -/
theorem free_waiting (idle : g.len = 0) {k : Nat} (waits : g.tapGap = some k) : g.free rate =
    if (3 * rate + 9) / 10 ≤ k + 1 then ({ g with tapGap := none }, 1) else ({ g with tapGap := some (k + 1) }, 0) := by
  unfold Gesture.free gapScans
  rw [if_neg (by simp [idle]), waits]

theorem free_resting (idle : g.len = 0) (rests : g.tapGap = none) : g.free rate = (g, 0) := by
  unfold Gesture.free
  rw [if_neg (by simp [idle]), rests]

/-- A tap ends: the second of a double tap reports, the first waits. -/
theorem free_tap (runs : g.len ≠ 0) (tap : g.len ≤ (rate + 3) / 4 ∧ g.exc < 32) : g.free rate =
    if g.second then ({ g with len := 0, second := false }, 2) else ({ g with len := 0, second := false, tapGap := some 0 }, 0) := by
  unfold Gesture.free tapScans
  rw [if_pos runs]
  dsimp only
  rw [if_pos (by simp [tap])]

/-- A longer episode ends: a hold or an overlong one reports nothing, another one the direction of its travel. -/
theorem free_swipe (runs : g.len ≠ 0) (long : ¬(g.len ≤ (rate + 3) / 4 ∧ g.exc < 32)) : g.free rate =
    ({ g with len := 0, second := false },
      if g.held = true ∨ (4 * rate + 4) / 5 < g.len then 0 else if 96 ≤ g.last - g.first then 3 else if g.last - g.first ≤ -96 then 4 else 0) := by
  unfold Gesture.free tapScans longScans
  rw [if_pos runs]
  dsimp only
  rw [if_neg (by simpa using long)]
  simp only [Bool.or_eq_true, decide_eq_true_eq, apply_ite (Prod.mk _)]

end

theorem gestures : Part.Gestures := by
  refine ⟨fun g rate pos => ?_, fun g rate => ?_⟩
  · rw [contact_eq]
    rw [← longer_first g pos, ← longer_exc g pos, ← longer_second g pos, ← longer_held g pos, ← longer_len g pos]
    obtain ⟨forgot, kept⟩ := longer_tapGap g pos
    have last := longer_last g pos
    generalize Gesture.longer g pos = x at forgot kept last
    intro n exc second late
    by_cases isLate : late
    · rw [if_pos isLate]
      exact ⟨rfl, rfl, last, rfl, fun _ => ⟨rfl, rfl⟩, fun k => absurd isLate k, fun k => absurd isLate k, fun k => absurd isLate k, forgot, kept⟩
    · rw [if_neg isLate]
      by_cases hold : n = (4 * rate + 4) / 5 ∧ exc < 32
      · rw [if_pos hold]
        exact ⟨rfl, rfl, last, rfl, fun k => absurd k isLate, fun _ => rfl, fun _ _ _ => ⟨rfl, rfl⟩, fun _ k => absurd hold k, forgot, kept⟩
      · rw [if_neg hold]
        exact ⟨rfl, rfl, last, rfl, fun k => absurd k isLate, fun _ => rfl, fun _ k l => absurd ⟨k, l⟩ hold, fun _ _ => ⟨rfl, rfl⟩, forgot, kept⟩
  · intro tap travel
    show (g.len ≠ 0 → (g.free rate).1.len = 0 ∧ (g.free rate).1.second = false
        ∧ (tap → g.second = true → (g.free rate).2 = 2) ∧ (tap → g.second = false → (g.free rate).2 = 0 ∧ (g.free rate).1.tapGap = some 0)
        ∧ (¬tap → g.held = true ∨ (4 * rate + 4) / 5 < g.len → (g.free rate).2 = 0)
        ∧ (¬tap → g.held = false → g.len ≤ (4 * rate + 4) / 5 → (g.free rate).2 = if 96 ≤ travel then 3 else if travel ≤ -96 then 4 else 0))
      ∧ (g.len = 0 → (∀ k, g.tapGap = some k → (3 * rate + 9) / 10 ≤ k + 1 → (g.free rate).2 = 1 ∧ (g.free rate).1.tapGap = none)
        ∧ (∀ k, g.tapGap = some k → k + 1 < (3 * rate + 9) / 10 → (g.free rate).2 = 0 ∧ (g.free rate).1.tapGap = some (k + 1))
        ∧ (g.tapGap = none → (g.free rate).2 = 0 ∧ (g.free rate).1 = g))
    refine ⟨fun runs => ?_, fun idle => ⟨fun k waits done => ?_, fun k waits goes => ?_, fun rests => ?_⟩⟩
    · by_cases isTap : tap
      · rw [free_tap rate runs isTap]
        cases second : g.second with
        | true => exact ⟨rfl, rfl, fun _ _ => rfl, fun _ k => Bool.noConfusion k, fun k => absurd isTap k, fun k => absurd isTap k⟩
        | false => exact ⟨rfl, rfl, fun _ k => Bool.noConfusion k, fun _ _ => ⟨rfl, rfl⟩, fun k => absurd isTap k, fun k => absurd isTap k⟩
      · rw [free_swipe rate runs isTap]
        refine ⟨rfl, rfl, fun k => absurd k isTap, fun k => absurd k isTap, fun _ k => if_pos k, fun _ held short => if_neg ?_⟩
        rintro (k | k)
        · exact Bool.false_ne_true (held.symm.trans k)
        · exact absurd k (Nat.not_lt.mpr short)
    · rw [free_waiting rate idle waits, if_pos done]
      exact ⟨rfl, rfl⟩
    · rw [free_waiting rate idle waits, if_neg (Nat.not_le.mpr goes)]
      exact ⟨rfl, rfl⟩
    · rw [free_resting rate idle rests]
      exact ⟨rfl, rfl⟩

end Sys2Proof.TouchWord
end

section
/-!
The nodes after a completed scan, one rule per field of a node (R247 to R250), and the parts of O51 that follow from them.
-/
namespace Sys2Proof.TouchNodes

open Sys2Proof.Machine Sys2Proof.Laws Sys2Proof.Stages Sys2Proof.Frames Sys2Proof.TouchWord

/-! ### Measurements, signals and threshold -/

theorem getD_map_range (f : Nat → Int) {n : Nat} (h : n < 128) : ((List.range 128).map f).getD n 0 = f n := by
  rw [List.getD_eq_getElem _ _ (by rw [List.length_map, List.length_range]; exact h), List.getElem_map, List.getElem_range]

theorem measures_getD (s : State) (chips : List (List Int)) {n : Nat} (h : n < 128) :
    (measures s chips).getD n 0 = measurement s.touch.scanNoise chips (n / 16) (n % 16) := getD_map_range _ h

theorem signals_getD (s : State) (chips : List (List Int)) {n : Nat} (h : n < 128) : (signals s chips).getD n 0 = signal s (measures s chips) n :=
  getD_map_range _ h

theorem node_getD (nodes : Vector Node 128) (n : Fin 128) : (nodes[n.val]?).getD Node.zero = nodes[n] := by
  rw [Vector.getElem?_eq_getElem n.isLt]
  rfl

theorem signal_fin (s : State) (chips : List (List Int)) (n : Fin 128) : (signals s chips).getD n.val 0 =
    if rxEnabled s (n.val % 16) then s.touch.nodes[n].base / 65536 - measurement s.touch.scanNoise chips (n.val / 16) (n.val % 16) else 0 := by
  rw [signals_getD s chips n.isLt, signal, node_getD, measures_getD s chips n.isLt]

theorem scanThreshold_eq (s : State) : scanThreshold s = 80 * (1 + s.touch.scanSense.toNat) * (if s.touch.scanNoise then 2 else 1) := by
  unfold scanThreshold touchThreshold
  split
  · rw [mul_comm]
  · rw [mul_one]

theorem scanThreshold_pos (s : State) : 0 < scanThreshold s := by
  rw [scanThreshold_eq]
  positivity

/-! ### The neighbourhood of a node -/

/-- Within one row and one column (R249). -/
def Near (n k : Nat) : Prop := k / 16 ≤ n / 16 + 1 ∧ n / 16 ≤ k / 16 + 1 ∧ k % 16 ≤ n % 16 + 1 ∧ n % 16 ≤ k % 16 + 1

theorem exists_around (n : Nat) (p : Nat → Prop) : (∃ k ∈ around n, p k) ↔ ∃ k : Fin 128, Near n k.val ∧ p k.val := by
  have mem : ∀ k, k ∈ around n ↔ k < 128 ∧ Near n k := by
    intro k
    simp only [around, Near, List.mem_filter, List.mem_range, Bool.and_eq_true, decide_eq_true_eq, and_assoc]
  constructor
  · rintro ⟨k, inside, h⟩
    obtain ⟨lt, near⟩ := (mem k).mp inside
    exact ⟨⟨k, lt⟩, near, h⟩
  · rintro ⟨k, near, h⟩
    exact ⟨k.val, (mem k.val).mpr ⟨k.isLt, near⟩, h⟩

/-! ### A node in a scan that is not the first -/

section
variable (s : State) (th : Int) (ds : List Int) (fires : List Nat) (x : Node) (n : Nat) (m : Int)

/-- The length of the steady run with this scan. -/
def runOf : Nat := if 4 * |m - x.runM0| ≤ th then x.runLen + 1 else 1

/-- A suspect node is released: by an anti-touch signal or a steady run of two seconds (R250). -/
def Released : Prop := x.suspect = true ∧ (ds.getD n 0 ≤ -(roundDiv th 2) ∨ 2 * touchRate s ≤ runOf th x m)

/-- Its baseline becomes the measurement. -/
def Rebased : Prop := Released s th ds x n m ∨ n ∈ fires ∨ (ds.getD n 0 < 0 ∧ ∃ k ∈ around n, k ∈ fires)

theorem scanNode_touched : (scanNode s th ds fires x n m).touched = true ↔ txEnabled s (n / 16) = true ∧ x.suspect = false ∧ th ≤ ds.getD n 0 := by
  simp only [scanNode, Bool.and_eq_true, Bool.not_eq_true', decide_eq_true_eq, and_assoc]

theorem scanNode_meas : (scanNode s th ds fires x n m).meas = m := rfl

theorem scanNode_anti : (scanNode s th ds fires x n m).anti =
    if n ∈ fires then 0 else if ds.getD n 0 ≤ -(roundDiv th 2) then min (x.anti + 1) 8 else 0 := by
  simp only [scanNode, List.contains_iff_mem]

variable (nonneg : 0 ≤ th)
include nonneg

theorem same_iff : (decide (4 * (m - x.runM0).natAbs ≤ th.natAbs) && decide (x.runLen ≠ 0)) = true ↔ x.runLen ≠ 0 ∧ 4 * |m - x.runM0| ≤ th := by
  have size : ((m - x.runM0).natAbs : Int) = |m - x.runM0| := Int.natCast_natAbs _
  rw [Bool.and_eq_true, decide_eq_true_eq, decide_eq_true_eq, and_comm]
  omega

theorem length_eq : (if (decide (4 * (m - x.runM0).natAbs ≤ th.natAbs) && decide (x.runLen ≠ 0)) = true then x.runLen + 1 else 1) = runOf th x m := by
  unfold runOf
  rw [if_congr (same_iff th x m nonneg) rfl rfl]
  split <;> split <;> omega

theorem released_iff : (x.suspect && (decide (ds.getD n 0 ≤ -(roundDiv th 2))
      || decide (2 * touchRate s ≤ if (decide (4 * (m - x.runM0).natAbs ≤ th.natAbs) && decide (x.runLen ≠ 0)) = true then x.runLen + 1 else 1))) = true
    ↔ Released s th ds x n m := by
  rw [length_eq th x m nonneg, Bool.and_eq_true, Bool.or_eq_true, decide_eq_true_eq, decide_eq_true_eq]
  exact Iff.rfl

theorem scanNode_suspect : (scanNode s th ds fires x n m).suspect = true ↔ x.suspect = true ∧ ¬Released s th ds x n m := by
  unfold scanNode
  extract_lets d anti frozen tracked same m0 len released rebased
  have rel : released = true ↔ Released s th ds x n m := released_iff s th ds x n m nonneg
  rw [← rel, Bool.and_eq_true, Bool.not_eq_true', Bool.not_eq_true]

theorem scanNode_run (kept : x.suspect = true) (held : ¬Released s th ds x n m) :
    (scanNode s th ds fires x n m).runLen = runOf th x m
      ∧ (scanNode s th ds fires x n m).runM0 = if x.runLen ≠ 0 ∧ 4 * |m - x.runM0| ≤ th then x.runM0 else m := by
  unfold scanNode
  extract_lets d anti frozen tracked same m0 len released rebased
  have rel : released = true ↔ Released s th ds x n m := released_iff s th ds x n m nonneg
  rw [← rel, Bool.not_eq_true] at held
  refine ⟨?_, if_congr (same_iff th x m nonneg) rfl rfl⟩
  rw [kept, held]
  exact length_eq th x m nonneg

theorem rebased_iff : ((x.suspect && (decide (ds.getD n 0 ≤ -(roundDiv th 2))
      || decide (2 * touchRate s ≤ if (decide (4 * (m - x.runM0).natAbs ≤ th.natAbs) && decide (x.runLen ≠ 0)) = true then x.runLen + 1 else 1)))
      || (fires.contains n || (decide (ds.getD n 0 < 0) && (around n).any fun k => fires.contains k))) = true ↔ Rebased s th ds fires x n m := by
  rw [Bool.or_eq_true, released_iff s th ds x n m nonneg]
  simp only [Rebased, Bool.or_eq_true, Bool.and_eq_true, List.contains_iff_mem, decide_eq_true_eq, List.any_eq_true]

theorem scanNode_base_rebased (h : Rebased s th ds fires x n m) : (scanNode s th ds fires x n m).base = 65536 * m :=
  (if_pos ((rebased_iff s th ds fires x n m nonneg).mpr h)).trans (mul_comm _ _)

theorem scanNode_base_tracked (h : ¬Rebased s th ds fires x n m) : (scanNode s th ds fires x n m).base =
    if ∃ k ∈ around n, th ≤ ds.getD k 0 then x.base
    else x.base + rshift ((65536 * m - x.base) * roundDiv 65536 (4 * touchRate s)) 16 := by
  refine (if_neg (mt (rebased_iff s th ds fires x n m nonneg).mp h)).trans ?_
  rw [mul_comm 65536 m]
  exact if_congr (by simp only [List.any_eq_true, decide_eq_true_eq]) rfl rfl

end

/-! ### The nodes after a scan -/

/-- The nodes in their eighth scan as anti-touch. -/
def firing (s : State) (chips : List (List Int)) : List Nat :=
  (List.range 128).filter fun n =>
    rxEnabled s (n % 16) && (signals s chips).getD n 0 ≤ -(roundDiv (scanThreshold s) 2) && 7 ≤ ((s.touch.nodes[n]?).getD Node.zero).anti

theorem mem_firing (s : State) (chips : List (List Int)) (n : Fin 128) : n.val ∈ firing s chips ↔
    (rxEnabled s (n.val % 16) = true ∧ (signals s chips).getD n.val 0 ≤ -(roundDiv (scanThreshold s) 2)) ∧ 7 ≤ s.touch.nodes[n].anti := by
  simp only [firing, List.mem_filter, List.mem_range, n.isLt, true_and, Bool.and_eq_true, decide_eq_true_eq, node_getD]

section
variable {s : State} (chips : List (List Int)) (n : Fin 128)

theorem nodesAfter_eq : (nodesAfter s chips)[n] =
    if !rxEnabled s (n.val % 16) then { s.touch.nodes[n] with touched := false, anti := 0, runLen := 0 }
    else if s.touch.fresh then firstScanNode s s.touch.nodes[n] n.val ((measures s chips).getD n.val 0)
    else scanNode s (scanThreshold s) (signals s chips) (firing s chips) s.touch.nodes[n] n.val ((measures s chips).getD n.val 0) :=
  Vector.getElem_ofFn n.isLt

variable {n}

theorem nodesAfter_off (off : rxEnabled s (n.val % 16) = false) :
    (nodesAfter s chips)[n] = { s.touch.nodes[n] with touched := false, anti := 0, runLen := 0 } := by
  rw [nodesAfter_eq, off]
  rfl

theorem nodesAfter_first (on : rxEnabled s (n.val % 16) = true) (first : s.touch.fresh = true) :
    (nodesAfter s chips)[n] = firstScanNode s s.touch.nodes[n] n.val ((measures s chips).getD n.val 0) := by
  rw [nodesAfter_eq, on, first]
  rfl

theorem nodesAfter_later (on : rxEnabled s (n.val % 16) = true) (later : s.touch.fresh = false) : (nodesAfter s chips)[n] =
    scanNode s (scanThreshold s) (signals s chips) (firing s chips) s.touch.nodes[n] n.val ((measures s chips).getD n.val 0) := by
  rw [nodesAfter_eq, on, later]
  rfl

/-- No node is touched in the first scan. -/
theorem nodesAfter_fresh (first : s.touch.fresh = true) : (nodesAfter s chips)[n].touched = false := by
  cases on : rxEnabled s (n.val % 16) with
  | true => rw [nodesAfter_first chips on first]; rfl
  | false => rw [nodesAfter_off chips on]

/-- A touched node is measured, was not suspect, and its signal reaches the threshold. -/
theorem touched_after (touched : (nodesAfter s chips)[n].touched = true) :
    rxEnabled s (n.val % 16) = true ∧ s.touch.nodes[n].suspect = false ∧ scanThreshold s ≤ (signals s chips).getD n.val 0 := by
  cases on : rxEnabled s (n.val % 16) with
  | false =>
    rw [nodesAfter_off chips on] at touched
    exact Bool.noConfusion touched
  | true =>
    cases first : s.touch.fresh with
    | true => exact absurd touched (by rw [nodesAfter_fresh chips first]; exact Bool.false_ne_true)
    | false =>
      rw [nodesAfter_later chips on first] at touched
      obtain ⟨_, sound, reaches⟩ := (scanNode_touched ..).mp touched
      exact ⟨rfl, sound, reaches⟩

end

/-! ### The completed scan -/

theorem exec_scanned {s : State} {chips listen : List (List Int)} {ups : List Upset}
    (wf : (Instr.scanComplete chips ⟨listen, ups⟩).wf = true) (runs : s.running = true) (scans : s.touch.scanning = true)
    (shape : chips.length = if s.touch.scanNoise then 16 else 8) (clean : romFailures ups = []) :
    exec (.scanComplete chips ⟨listen, ups⟩) s = .next { s with touch := { noiseAfter s listen with
      nodes := nodesAfter s chips, fresh := false, scanning := false, gesture := (heard s chips).1, summary := wordAfter s chips, done := true } } := by
  rw [exec_scanComplete wf runs scans shape, withRomErrors_none s ups _ clean, scanResult_eq]

theorem nodeRules : Part.NodeRules := by
  intro s chips listen ups wf runs scans shape later clean
  refine ⟨_, exec_scanned wf runs scans shape clean, fun n => ?_⟩
  intro th m d near anti fires x y steady run released
  have pos := (scanThreshold_pos s).le
  have same : th = scanThreshold s := (scanThreshold_eq s).symm
  have heard (k : Fin 128) : (signals s chips).getD k.val 0 = d k := signal_fin s chips k
  have measured : (measures s chips).getD n.val 0 = m n := measures_getD s chips n.isLt
  have fired (k : Fin 128) : k.val ∈ firing s chips ↔ fires k := by
    rw [mem_firing, heard, ← same]
  refine ⟨fun off => nodesAfter_off chips off, fun on => ?_⟩
  have node : y = scanNode s th (signals s chips) (firing s chips) x n.val (m n) := by
    rw [← measured, same]
    exact nodesAfter_later chips on later
  have isAnti : (signals s chips).getD n.val 0 ≤ -(roundDiv th 2) ↔ anti n := by
    rw [heard]
    exact (and_iff_right on).symm
  have isReleased : Released s th (signals s chips) x n.val (m n) ↔ released := and_congr_right fun _ => or_congr isAnti Iff.rfl
  have fireNear : (∃ k ∈ around n.val, k ∈ firing s chips) ↔ ∃ k, near k ∧ fires k :=
    (exists_around n.val _).trans (exists_congr fun k => and_congr Iff.rfl (fired k))
  have reachNear : (∃ k ∈ around n.val, th ≤ (signals s chips).getD k 0) ↔ ∃ k, near k ∧ th ≤ d k :=
    (exists_around n.val _).trans (exists_congr fun k => and_congr Iff.rfl (by rw [heard]))
  have isRebased : Rebased s th (signals s chips) (firing s chips) x n.val (m n) ↔ released ∨ fires n ∨ (d n < 0 ∧ ∃ k, near k ∧ fires k) := by
    unfold Rebased
    rw [isReleased, fired n, fireNear, heard]
  rw [← same] at pos
  clear_value y
  subst node
  rw [← heard n, ← isAnti, ← fired n]
  rw [← heard n, ← fired n] at isRebased
  refine ⟨scanNode_touched .., ?_, fun k => scanNode_base_rebased _ _ _ _ _ _ _ pos (isRebased.mpr k), fun k => ?_, fun k => ?_, fun k => ?_,
    fun k l => ?_, fun k l => ?_, scanNode_meas ..⟩
  · rw [scanNode_suspect _ _ _ _ _ _ _ pos, isReleased]
  · rw [scanNode_base_tracked _ _ _ _ _ _ _ pos (mt isRebased.mp k)]
    exact ⟨fun near => if_pos (reachNear.mpr near),
      fun far => if_neg fun k => by obtain ⟨k, near, reaches⟩ := reachNear.mp k; exact absurd (far k near) (not_lt.mpr reaches)⟩
  · rw [scanNode_anti, if_pos k]
  · rw [scanNode_anti, if_neg k, ite_self]
  · rw [scanNode_anti, if_neg l, if_pos k]
  · exact scanNode_run _ _ _ _ _ _ _ pos k (mt isReleased.mp l)

end Sys2Proof.TouchNodes
end

section
/-!
The strongest touched node of a scan with its position and key (R253), and the summary word that reports them (R255, Table 13-3): the parts of O51 about
them, and O51.
-/
namespace Sys2Proof.TouchReport

open Sys2Proof.Machine Sys2Proof.Laws Sys2Proof.Stages Sys2Proof.Frames Sys2Proof.TouchWord Sys2Proof.TouchNodes

/-! ### The strongest touched node -/

section
variable (nodes : Vector Node 128) (ds : List Int)

def isTouched (n : Nat) : Bool := ((nodes[n]?).getD Node.zero).touched

/-- Node `b` is the strongest of the touched ones below `m`, the lowest among equals. -/
def Leads (m b : Nat) : Prop :=
  b < m ∧ isTouched nodes b = true ∧ ∀ k, k < m → isTouched nodes k = true → ds.getD k 0 < ds.getD b 0 ∨ (ds.getD k 0 = ds.getD b 0 ∧ b ≤ k)

def stronger (best : Option Nat) (n : Nat) : Option Nat :=
  if !isTouched nodes n then best
  else match best with
    | none => some n
    | some b => if ds.getD b 0 < ds.getD n 0 then some n else best

/-- What the search has found below `m`. -/
def Searched (m : Nat) : Option Nat → Prop
  | none => ∀ k, k < m → isTouched nodes k = false
  | some b => Leads nodes ds m b

theorem searched_step {m : Nat} {best : Option Nat} (h : Searched nodes ds m best) : Searched nodes ds (m + 1) (stronger nodes ds best m) := by
  unfold stronger
  cases here : isTouched nodes m with
  | false =>
    cases best with
    | none =>
      intro k lt
      obtain below | rfl := Nat.lt_succ_iff_lt_or_eq.mp lt
      · exact h k below
      · exact here
    | some b =>
      obtain ⟨lt, touched, top⟩ := h
      refine ⟨Nat.lt_succ_of_lt lt, touched, fun k ltk on => ?_⟩
      obtain below | rfl := Nat.lt_succ_iff_lt_or_eq.mp ltk
      · exact top k below on
      · exact absurd on (by rw [here]; exact Bool.false_ne_true)
  | true =>
    cases best with
    | none =>
      refine ⟨Nat.lt_succ_self m, here, fun k ltk on => ?_⟩
      obtain below | rfl := Nat.lt_succ_iff_lt_or_eq.mp ltk
      · exact absurd on (by rw [h k below]; exact Bool.false_ne_true)
      · exact .inr ⟨rfl, le_rfl⟩
    | some b =>
      obtain ⟨lt, touched, top⟩ := h
      show Searched nodes ds (m + 1) (if ds.getD b 0 < ds.getD m 0 then some m else some b)
      split
      case isTrue beats =>
        refine ⟨Nat.lt_succ_self m, here, fun k ltk on => ?_⟩
        obtain below | rfl := Nat.lt_succ_iff_lt_or_eq.mp ltk
        · have behind := top k below on
          exact .inl (by omega)
        · exact .inr ⟨rfl, le_rfl⟩
      case isFalse holds =>
        refine ⟨Nat.lt_succ_of_lt lt, touched, fun k ltk on => ?_⟩
        obtain below | rfl := Nat.lt_succ_iff_lt_or_eq.mp ltk
        · exact top k below on
        · omega

theorem searched (m : Nat) : Searched nodes ds m ((List.range m).foldl (stronger nodes ds) none) := by
  induction m with
  | zero => exact fun k lt => absurd lt (Nat.not_lt_zero k)
  | succ m ih =>
    rw [List.range_succ, List.foldl_append]
    exact searched_step nodes ds ih

theorem strongest_searched : Searched nodes ds 128 (strongest nodes ds) := searched nodes ds 128

theorem isTouched_fin (n : Fin 128) : isTouched nodes n.val = nodes[n].touched := by
  unfold isTouched
  rw [node_getD]

/-- A node is found exactly when one is touched. -/
theorem strongest_isSome : (strongest nodes ds).isSome = true ↔ ∃ n : Fin 128, nodes[n].touched = true := by
  have h := strongest_searched nodes ds
  cases found : strongest nodes ds with
  | none =>
    rw [found] at h
    refine ⟨fun k => Bool.noConfusion k, ?_⟩
    rintro ⟨n, on⟩
    rw [← isTouched_fin, h n.val n.isLt] at on
    exact Bool.noConfusion on
  | some b =>
    rw [found] at h
    obtain ⟨lt, touched, _⟩ := h
    exact ⟨fun _ => ⟨⟨b, lt⟩, (isTouched_fin nodes ⟨b, lt⟩).symm.trans touched⟩, fun _ => rfl⟩

/-- A touched node that no other one beats is the one found. -/
theorem strongest_of_top {n : Fin 128} (on : nodes[n].touched = true)
    (top : ∀ k : Fin 128, nodes[k].touched = true → ds.getD k.val 0 < ds.getD n.val 0 ∨ (ds.getD k.val 0 = ds.getD n.val 0 ∧ n ≤ k)) :
    strongest nodes ds = some n.val := by
  have h := strongest_searched nodes ds
  cases found : strongest nodes ds with
  | none =>
    rw [found] at h
    rw [← isTouched_fin, h n.val n.isLt] at on
    exact Bool.noConfusion on
  | some b =>
    rw [found] at h
    obtain ⟨lt, touched, wins⟩ := h
    have forth := top ⟨b, lt⟩ ((isTouched_fin nodes ⟨b, lt⟩).symm.trans touched)
    have back := wins n.val n.isLt ((isTouched_fin nodes n).trans on)
    simp only [Fin.le_def] at forth
    exact congrArg some (by omega)

end

/-! ### The packing of the summary word -/

section
variable {contact key pos event noise suspect : Nat}

/-- The fields of a word laid out as Table 13-3 says. -/
theorem packed_fields (c : contact < 2) (k : key < 16) (p : pos < 256) (e : event < 32) (n : noise < 2) (u : suspect < 2) :
    let w := (BitVec.ofNat 32 (contact + key * 2 + pos * 32 + event * 2 ^ 13 + noise * 2 ^ 18 + suspect * 2 ^ 19)).toNat
    field w 0 1 = contact ∧ field w 1 4 = key ∧ field w 5 8 = pos ∧ field w 13 5 = event ∧ field w 18 1 = noise ∧ field w 19 1 = suspect := by
  have small : contact + key * 2 + pos * 32 + event * 2 ^ 13 + noise * 2 ^ 18 + suspect * 2 ^ 19 < 2 ^ 32 := by omega
  intro w
  have same : w = _ := (BitVec.toNat_ofNat ..).trans (Nat.mod_eq_of_lt small)
  rw [same]
  unfold field
  omega

end

theorem getLsbD_iff (w : BitVec 32) (i : Nat) : w.getLsbD i = true ↔ field w.toNat i 1 = 1 := by
  rw [← BitVec.testBit_toNat, Nat.testBit_eq_decide_div_mod_eq, decide_eq_true_eq]
  rfl

/-- EVENT with WAKE and LOST after a scan: kept while there is no new event. -/
def eventField (s : State) (event : Nat) : Nat :=
  if event = 0 then field s.touch.summary.toNat 13 5
  else event + 8 * (decide (if wakeSelect s then event = 3 else event = 2)).toNat + 16 * (decide (field s.touch.summary.toNat 13 3 ≠ 0)).toNat

theorem eventField_lt (s : State) {event : Nat} (small : event < 8) : eventField s event < 32 := by
  unfold eventField
  split
  · exact Nat.mod_lt _ (by decide)
  · have wake := Bool.toNat_lt (decide (if wakeSelect s then event = 3 else event = 2))
    have lost := Bool.toNat_lt (decide (field s.touch.summary.toNat 13 3 ≠ 0))
    omega

theorem summaryAfter_eq (s : State) (contact : Bool) (key pos event : Nat) (noise suspect : Bool) :
    summaryAfter s contact key pos event noise suspect = BitVec.ofNat 32 (contact.toNat + key * 2
      + (if contact then pos else field s.touch.summary.toNat 5 8) * 32 + eventField s event * 2 ^ 13 + noise.toNat * 2 ^ 18 + suspect.toNat * 2 ^ 19) := by
  have bit (x : Bool) (i : Nat) : (if x then 2 ^ i else 0) = x.toNat * 2 ^ i := by
    cases x
    · exact (Nat.zero_mul _).symm
    · exact (Nat.one_mul _).symm
  have event' : (if event = 0 then field s.touch.summary.toNat 13 5 * 2 ^ 13
      else event * 2 ^ 13 + (decide (if wakeSelect s then event = 3 else event = 2)).toNat * 2 ^ 16
        + (decide (field s.touch.summary.toNat 13 3 ≠ 0)).toNat * 2 ^ 17) = eventField s event * 2 ^ 13 := by
    unfold eventField
    split
    · rfl
    · omega
  unfold summaryAfter
  extract_lets old wake b ev
  have ev' : ev = eventField s event * 2 ^ 13 := by
    rw [← event', ← bit, ← bit]
  rw [ev']
  simp only [b, bit, old, pow_zero, mul_one]

/-! ### Key and position of a node -/

section
variable (s : State) (n : Nat)

/-- Node `n` lies in the rectangle of key `q`, and the key is enabled. -/
def InKey (q : Nat) : Prop :=
  bitAt (touchKey s q) 14 = true ∧ field (touchKey s q) 0 3 ≤ n / 16 ∧ n / 16 ≤ field (touchKey s q) 3 3 ∧ field (touchKey s q) 6 4 ≤ n % 16
    ∧ n % 16 ≤ field (touchKey s q) 10 4

def inKey (q : Nat) : Bool :=
  let k := touchKey s q
  bitAt k 14 && field k 0 3 ≤ n / 16 && n / 16 ≤ field k 3 3 && field k 6 4 ≤ n % 16 && n % 16 ≤ field k 10 4

theorem inKey_iff (q : Nat) : inKey s n q = true ↔ InKey s n q := by
  simp only [inKey, InKey, Bool.and_eq_true, decide_eq_true_eq, and_assoc]

theorem keyOf_eq : keyOf s n = (((List.range 8).find? (inKey s n)).map (· + 1)).getD 0 := by
  unfold keyOf
  show (match (List.range 8).find? (inKey s n) with | some q => q + 1 | none => 0) = _
  cases (List.range 8).find? (inKey s n) <;> rfl

theorem keyOf_none (out : ∀ q, q < 8 → ¬InKey s n q) : keyOf s n = 0 := by
  rw [keyOf_eq, List.find?_eq_none.mpr fun q k => mt (inKey_iff s n q).mp (out q (List.mem_range.mp k))]
  rfl

theorem keyOf_first {q : Nat} (lt : q < 8) (inside : InKey s n q) (first : ∀ j, j < q → ¬InKey s n j) : keyOf s n = q + 1 := by
  have found : (List.range 8).find? (inKey s n) = some q := List.find?_range_eq_some.mpr
    ⟨(inKey_iff s n q).mpr inside, List.mem_range.mpr lt, fun j k => by
      rw [Bool.not_eq_true', ← Bool.not_eq_true, inKey_iff]
      exact first j k⟩
  rw [keyOf_eq, found]
  rfl

theorem keyOf_lt : keyOf s n < 16 := by
  rw [keyOf_eq]
  cases found : (List.range 8).find? (inKey s n) with
  | none => decide
  | some q =>
    have lt : q < 8 := List.mem_range.mp (List.mem_of_find?_eq_some found)
    show q + 1 < 16
    omega

end

section
variable (s : State) (ds : List Int)

theorem rowSignal_nat {i j : Nat} (le : j ≤ 15) : rowSignal s ds i (j : Int) =
    if rxEnabled s j = false ∨ ((s.touch.nodes[16 * i + j]?).getD Node.zero).suspect = true then 0 else max 0 (ds.getD (16 * i + j) 0) := by
  unfold rowSignal
  rw [if_neg (by rw [Bool.or_eq_true, decide_eq_true_eq, decide_eq_true_eq]; omega)]
  simp only [Int.toNat_natCast, Bool.or_eq_true, Bool.not_eq_true']

theorem rowSignal_left (i r : Nat) : rowSignal s ds i ((r : Int) - 1) = if r = 0 then 0 else rowSignal s ds i ((r - 1 : Nat) : Int) := by
  split
  case isTrue first => exact if_pos (by rw [Bool.or_eq_true, decide_eq_true_eq, decide_eq_true_eq]; omega)
  case isFalse inner => rw [Int.natCast_sub (by omega), Nat.cast_one]

theorem rowSignal_right (i : Nat) (r : Nat) : rowSignal s ds i ((r : Int) + 1) = if r = 15 then 0 else rowSignal s ds i ((r + 1 : Nat) : Int) := by
  split
  case isTrue last => exact if_pos (by rw [Bool.or_eq_true, decide_eq_true_eq, decide_eq_true_eq]; omega)
  case isFalse inner => rw [Nat.cast_add, Nat.cast_one]

/-- POS lies on its scale. -/
theorem position_range (n : Nat) : 0 ≤ position s ds n ∧ position s ds n ≤ 240 := by
  unfold position clampInt
  extract_lets i r lo mid hi pos
  have inside : 0 ≤ pos ∧ pos ≤ 240 := ⟨le_max_left .., max_le (by decide) (min_le_right ..)⟩
  split <;> omega

end

/-! ### The word that a scan leaves -/

theorem contact_event (g : Gesture) (rate : Nat) (pos : Int) : (g.contact rate pos).2 < 8 := by
  rw [contact_eq]
  dsimp only
  split
  · norm_num
  · split <;> norm_num

theorem free_event (g : Gesture) (rate : Nat) : (g.free rate).2 < 8 := by
  by_cases idle : g.len = 0
  · cases waits : g.tapGap with
    | none =>
      rw [free_resting rate idle waits]
      norm_num
    | some k =>
      rw [free_waiting rate idle waits]
      split <;> norm_num
  · by_cases tap : g.len ≤ (rate + 3) / 4 ∧ g.exc < 32
    · rw [free_tap rate idle tap]
      split <;> norm_num
    · rw [free_swipe rate idle tap]
      dsimp only
      split
      · norm_num
      · split
        · norm_num
        · split <;> norm_num

section
variable (s : State) (chips : List (List Int))

theorem heard_contact {s : State} {chips : List (List Int)} (h : (bestAfter s chips).isSome = true) :
    heard s chips = s.touch.gesture.contact (touchRate s) (posAfter s chips) := if_pos h

theorem heard_free {s : State} {chips : List (List Int)} (h : ¬(bestAfter s chips).isSome = true) :
    heard s chips = s.touch.gesture.free (touchRate s) := if_neg h

theorem heard_event : (heard s chips).2 < 8 := by
  unfold heard
  split
  · exact contact_event ..
  · exact free_event ..

theorem posAfter_le : posAfter s chips ≤ 240 := by
  unfold posAfter
  cases bestAfter s chips with
  | none => exact Nat.zero_le _
  | some n =>
    have range := position_range s (signals s chips) n
    show (position s (signals s chips) n).toNat ≤ 240
    omega

theorem keyAfter_lt : (bestAfter s chips).elim 0 (keyOf s) < 16 := by
  cases bestAfter s chips with
  | none => exact Nat.succ_pos _
  | some n => exact keyOf_lt s n

/-- The fields of the summary word after a scan. -/
structure Reports (w : Nat) : Prop where
  contact : field w 0 1 = (bestAfter s chips).isSome.toNat
  key : field w 1 4 = (bestAfter s chips).elim 0 (keyOf s)
  pos : field w 5 8 = if (bestAfter s chips).isSome then posAfter s chips else field s.touch.summary.toNat 5 8
  event : field w 13 5 = eventField s (heard s chips).2
  noise : field w 18 1 = s.touch.scanNoise.toNat
  suspect : field w 19 1 = ((nodesAfter s chips).any (·.suspect)).toNat

theorem wordAfter_reports : Reports s chips (wordAfter s chips).toNat := by
  have position : (if (bestAfter s chips).isSome then posAfter s chips else field s.touch.summary.toNat 5 8) < 256 := by
    have le := posAfter_le s chips
    split
    · omega
    · exact Nat.mod_lt _ (by decide)
  have fields := packed_fields (Bool.toNat_lt (bestAfter s chips).isSome) (keyAfter_lt s chips) position (eventField_lt s (heard_event s chips))
    (Bool.toNat_lt s.touch.scanNoise) (Bool.toNat_lt ((nodesAfter s chips).any (·.suspect)))
  rw [wordAfter, summaryAfter_eq]
  obtain ⟨contact, key, pos, event, noise, suspect⟩ := fields
  exact ⟨contact, key, pos, event, noise, suspect⟩

theorem contact_iff : (bestAfter s chips).isSome = true ↔ ∃ n : Fin 128, (nodesAfter s chips)[n].touched = true := strongest_isSome _ _

theorem suspect_iff : (nodesAfter s chips).any (·.suspect) = true ↔ ∃ n : Fin 128, (nodesAfter s chips)[n].suspect = true := by
  rw [Vector.any_eq_true]
  exact ⟨fun ⟨i, lt, h⟩ => ⟨⟨i, lt⟩, h⟩, fun ⟨n, h⟩ => ⟨n.val, n.isLt, h⟩⟩

end

/-! ### The obligation -/

theorem firstScanNode_suspect (s : State) (x : Node) (n : Nat) (m : Int) :
    let r : Int := leNat [s.nvm.cal (0xF90 + 2 * n), s.nvm.cal (0xF91 + 2 * n)]
    (firstScanNode s x n m).suspect = true ↔ r ≠ 0 ∧ r < 4 * |m - r| := by
  intro r
  have same : touchRef s n = r := by
    simp only [touchRef, r, leNat, Nat.mul_zero, Nat.add_zero]
  have size : ((m - r).natAbs : Int) = |m - r| := Int.natCast_natAbs _
  have nonneg : 0 ≤ r := Int.natCast_nonneg _
  simp only [firstScanNode, same, Bool.and_eq_true, decide_eq_true_eq]
  exact and_congr_right fun _ => by omega

theorem scanCompletes : Part.ScanCompletes := by
  intro s chips listen ups wf runs scans shape clean
  obtain ⟨contact, _, _, _, noise, suspect⟩ := wordAfter_reports s chips
  refine ⟨_, exec_scanned wf runs scans shape clean, rfl, rfl, rfl, rfl, ?_, rfl, ?_, ?_, ?_, fun n touched => (touched_after chips touched).1,
    fun first n => ⟨nodesAfter_fresh chips first, fun on => ?_⟩⟩
  · exact (List.length_take_le ..)
  · exact (getLsbD_iff ..).trans (by rw [contact, Bool.toNat_eq_one]; exact contact_iff s chips)
  · exact Bool.eq_iff_iff.mpr ((getLsbD_iff ..).trans (by rw [noise, Bool.toNat_eq_one]))
  · exact (getLsbD_iff ..).trans (by rw [suspect, Bool.toNat_eq_one]; exact suspect_iff s chips)
  · show (nodesAfter s chips)[n].base = _ ∧ ((nodesAfter s chips)[n].suspect = true ↔ _)
    rw [nodesAfter_first chips on first, measures_getD s chips n.isLt]
    exact ⟨mul_comm _ _, firstScanNode_suspect ..⟩

section
variable {s : State} (chips : List (List Int)) {n : Fin 128}

/-- The signal of the node in column `j` of row `i`, 0 for one that is not measured or is suspect. -/
def sideSignal (s : State) (d : Nat → Int) (i j : Nat) : Int :=
  if rxEnabled s j = false ∨ (∃ h : 16 * i + j < 128, (s.touch.nodes[16 * i + j]).suspect = true) then 0 else max 0 (d (16 * i + j))

theorem rowSignal_side {i j : Nat} (row : i < 8) (column : j ≤ 15) :
    rowSignal s (signals s chips) i (j : Int) = sideSignal s (signal s (measures s chips)) i j := by
  have lt : 16 * i + j < 128 := by omega
  have suspect : (∃ h : 16 * i + j < 128, (s.touch.nodes[16 * i + j]).suspect = true)
      ↔ ((s.touch.nodes[16 * i + j]?).getD Node.zero).suspect = true := by
    rw [Vector.getElem?_eq_getElem lt]
    exact ⟨fun ⟨_, h⟩ => h, fun h => ⟨lt, h⟩⟩
  rw [rowSignal_nat _ _ column, signals_getD s chips lt]
  exact if_congr (or_congr Iff.rfl suspect.symm) rfl rfl

/-- A touched node's own signal counts in full. -/
theorem rowSignal_touched (on : (nodesAfter s chips)[n].touched = true) :
    rowSignal s (signals s chips) (n.val / 16) ((n.val % 16 : Nat) : Int) = signal s (measures s chips) n.val := by
  obtain ⟨measured, sound, reaches⟩ := touched_after chips on
  have above := (scanThreshold_pos s).le.trans reaches
  have here : 16 * (n.val / 16) + n.val % 16 = n.val := Nat.div_add_mod ..
  rw [rowSignal_nat _ _ (by omega), here, node_getD, if_neg (by rw [measured, sound]; rintro (k | k) <;> exact Bool.noConfusion k),
    max_eq_right above, signals_getD s chips n.isLt]

theorem position_of_touched (on : (nodesAfter s chips)[n].touched = true) :
    let side := sideSignal s (signal s (measures s chips)) (n.val / 16)
    let r := n.val % 16
    let lo := if r = 0 then 0 else side (r - 1)
    let hi := if r = 15 then 0 else side (r + 1)
    let p := max 0 (min (16 * (r : Int) + roundDiv (16 * (hi - lo)) (lo + signal s (measures s chips) n.val + hi).toNat) 240)
    position s (signals s chips) n.val = if touchDir s then 240 - p else p := by
  intro side r lo hi p
  have row : n.val / 16 < 8 := by omega
  have left : rowSignal s (signals s chips) (n.val / 16) ((r : Int) - 1) = lo := by
    rw [rowSignal_left, rowSignal_side chips row (by omega)]
  have right : rowSignal s (signals s chips) (n.val / 16) ((r : Int) + 1) = hi := by
    rw [rowSignal_right]
    unfold hi
    split
    · rfl
    · exact rowSignal_side chips row (by omega)
  unfold position
  dsimp only
  rw [left, right, rowSignal_touched chips on]
  rfl

end

/-- A new event stands in the word with WAKE and LOST. -/
theorem event_fields {s : State} {w e : Nat} (small : e < 8)
    (fields : field w 13 5 = e + 8 * (decide (if wakeSelect s then e = 3 else e = 2)).toNat + 16 * (decide (field s.touch.summary.toNat 13 3 ≠ 0)).toNat) :
    field w 13 3 = e ∧ (bitAt w 16 = true ↔ e = if wakeSelect s then 3 else 2) ∧ (bitAt w 17 = true ↔ field s.touch.summary.toNat 13 3 ≠ 0) := by
  have wakes : (e = if wakeSelect s then 3 else 2) ↔ if wakeSelect s then e = 3 else e = 2 := by
    split <;> exact Iff.rfl
  have wakeBit := Bool.toNat_lt (decide (if wakeSelect s then e = 3 else e = 2))
  have lostBit := Bool.toNat_lt (decide (field s.touch.summary.toNat 13 3 ≠ 0))
  have wakeSet := Bool.toNat_eq_one.trans (decide_eq_true_iff (p := if wakeSelect s then e = 3 else e = 2))
  have lostSet := Bool.toNat_eq_one.trans (decide_eq_true_iff (p := field s.touch.summary.toNat 13 3 ≠ 0))
  rw [wakes, ← wakeSet, ← lostSet]
  generalize (decide (if wakeSelect s then e = 3 else e = 2)).toNat = wake at fields wakeBit
  generalize (decide (field s.touch.summary.toNat 13 3 ≠ 0)).toNat = lost at fields lostBit
  unfold field at fields
  unfold field bitAt
  rw [decide_eq_true_eq, decide_eq_true_eq]
  omega

theorem positionAndKey : Part.PositionAndKey := by
  intro s chips listen ups wf runs scans shape clean
  refine ⟨_, exec_scanned wf runs scans shape clean, ?_⟩
  intro old new d contact
  obtain ⟨_, key, pos, event, _, _⟩ := wordAfter_reports s chips
  have someIff : (bestAfter s chips).isSome = true ↔ contact := contact_iff s chips
  have found (yes : contact) : field new 5 8 = posAfter s chips := pos.trans (if_pos (someIff.mpr yes))
  refine ⟨fun no => ?_, fun n on top => ?_, (heard s chips).2, fun yes => ?_, fun no => ?_, fun quiet => ?_, fun loud => ?_⟩
  · have none : bestAfter s chips = none := Option.not_isSome_iff_eq_none.mp (mt someIff.mp no)
    rw [none] at key pos
    exact ⟨key, pos⟩
  · have best : bestAfter s chips = some n.val := strongest_of_top _ _ on fun k touched => by
      rw [signals_getD s chips k.isLt, signals_getD s chips n.isLt]
      exact top k touched
    intro i r side lo hi p inKey
    have keyed : field new 1 4 = keyOf s n.val := key.trans (by rw [best]; rfl)
    have position : (field new 5 8 : Int) = position s (signals s chips) n.val := by
      rw [found ⟨n, on⟩, posAfter, best]
      exact Int.toNat_of_nonneg (position_range ..).1
    refine ⟨position.trans ?_, fun out => keyed.trans (keyOf_none s n.val out), fun q lt inside first => keyed.trans (keyOf_first s n.val lt inside first)⟩
    exact position_of_touched chips on
  · rw [found yes]
    have same := heard_contact (someIff.mpr yes)
    generalize heard s chips = made at same ⊢
    exact same
  · have same := heard_free (mt someIff.mp no)
    generalize heard s chips = made at same ⊢
    exact same
  · exact event.trans (if_pos quiet)
  · have fields : field new 13 5 = _ := event.trans (if_neg loud)
    exact event_fields (heard_event s chips) fields

/-- Settles O51: a scan leaves what `scanResult` says, whose nodes follow node by node and whose summary word reports the strongest of them. -/
theorem touchScans : Obligations.TouchScans := ⟨scanStarts, scanCompletes, scanStopped, nodeRules, positionAndKey, gestures⟩

end Sys2Proof.TouchReport
end

section
/-!
SUPPORT. The steps of the model that leave the phase of the Conductor alone (R84): one rule per step, for the commands that a module in Tacet answers.
-/
namespace Sys2Proof.Phases

open Sys2Proof.Machine Sys2Proof.Laws Sys2Proof.Stages Sys2Proof.Frames

/-- From `s` to `t` the phase has not changed. -/
def SamePhase (s t : State) : Prop := t.cond.phase = s.cond.phase

theorem SamePhase.refl (s : State) : SamePhase s s := rfl

theorem SamePhase.trans {s t u : State} (a : SamePhase s t) (b : SamePhase t u) : SamePhase s u := Eq.trans b a

theorem SamePhase.of_cond {s t : State} (h : t.cond = s.cond) : SamePhase s t := congrArg Conductor.phase h

theorem SamePhase.ite {s a b : State} {c : Prop} [Decidable c] (x : SamePhase s a) (y : SamePhase s b) : SamePhase s (if c then a else b) := by
  split
  · exact x
  · exact y

theorem SamePhase.foldl {α : Type} {s t : State} (f : State → α → State) (l : List α) (k : ∀ u x, SamePhase u (f u x)) (h : SamePhase s t) :
    SamePhase s (l.foldl f t) := by
  induction l generalizing t with
  | nil => exact h
  | cons a l ih => exact ih (h.trans (k t a))

/-! ### Detectors, reads and stores -/

theorem samePhase_of_tripped {s t : State} (h : Tripped s t) : SamePhase s t := by
  have frame : t = retripped s t := h
  exact (congrArg (fun x : State => x.cond.phase) frame :)

theorem samePhase_of_tallied {s t : State} (h : Tallied s t) : SamePhase s t := .of_cond (congrArg State.cond h :)

theorem samePhase_of_stored {s t : State} (h : Stored s t) : SamePhase s t := .of_cond (congrArg State.cond h :)

theorem samePhase_withRomErrors (s : State) (ups : List Upset) {act : State → State} (h : ∀ u, SamePhase u (act u)) :
    SamePhase s (withRomErrors s ups act) := by
  by_cases clean : romFailures ups = []
  · rw [withRomErrors_none s ups act clean]
    exact h s
  · have acted : SamePhase s (failingIn (act (failingIn s (romFailures ups))) s.nvm.failing) := h (failingIn s (romFailures ups))
    exact acted.trans (samePhase_of_tripped (tripped_withRomErrors s ups act clean))

theorem samePhase_romErrors (s : State) (ws : List Nat) (ups : List Upset) : SamePhase s (romErrors s ws ups) :=
  .foldl _ _ (fun u _ => samePhase_of_tripped (tripped_eccTrip u 8 _)) (.refl s)

theorem samePhase_readErrors (s : State) (ws : List Nat) (ups : List Upset) : SamePhase s (readErrors s ws ups) :=
  samePhase_of_tripped (tripped_readErrors s ws ups)

theorem samePhase_storeLane (s : State) (addr size : Nat) (v : Word) : SamePhase s (storeLane s addr size v) := by
  unfold storeLane
  exact .ite rfl rfl

theorem samePhase_opUpsets (s : State) (ups : List Upset) : SamePhase s (opUpsets s ups).1 := by
  unfold opUpsets
  have start : SamePhase s (countInjected6 s 0) := samePhase_of_tripped (tripped_countInjected6 s 0)
  generalize false = failed
  generalize countInjected6 s 0 = t at start
  dsimp only
  induction ups generalizing t failed with
  | nil => exact start
  | cons u ups ih =>
    rw [List.foldl_cons]
    split
    · split
      · exact ih _ _ (start.trans (samePhase_of_tripped (tripped_eccTrip t 8 _)))
      · exact ih _ _ start
    · exact ih _ _ (start.trans (samePhase_of_tripped (tripped_takeUpset t u)))

/-! ### The verdict latch and the cues -/

theorem samePhase_latchVerdict (s : State) (ups : List Upset) : SamePhase s (latchVerdict s ups) := by
  unfold latchVerdict
  extract_lets a ws t
  have read : SamePhase s t := samePhase_readErrors s ws ups
  exact read.trans rfl

theorem samePhase_post (s : State) (cue inc : Nat) (ups : List Upset) : SamePhase s (post s cue inc ups) := by
  unfold post
  exact .ite (.refl s) (.ite (samePhase_latchVerdict _ ups) rfl)

theorem samePhase_postReading (s : State) (cue inc : Nat) (ups : List Upset) : SamePhase s (postReading s cue inc ups) :=
  samePhase_withRomErrors s ups fun u => samePhase_post u cue inc ups

theorem samePhase_postSync (s : State) (off : Nat) (ups : List Upset) : SamePhase s (postSync s off ups) := samePhase_post s _ _ ups

/-! ### Queues and operations -/

theorem samePhase_exec {s t : State} (h : SamePhase s t) (x : Exec) : SamePhase s { t with exec := x } := h

theorem samePhase_dispatchTutti (s : State) : SamePhase s (dispatchTutti s) := by
  unfold dispatchTutti
  extract_lets x
  split
  · exact .ite rfl (.refl s)
  · exact .refl s

theorem samePhase_dispatchSoli (s : State) : SamePhase s (dispatchSoli s) := by
  unfold dispatchSoli
  extract_lets x
  split
  · exact .ite (.ite (.ite rfl (.refl s)) (.ite (.refl s) rfl)) (.refl s)
  · exact .refl s

theorem samePhase_completeHelper (s : State) (kind : Nat) (ups : List Upset) {work : State → Nat → State} (h : ∀ u o, SamePhase u (work u o)) :
    SamePhase s (completeHelper s kind ups work) := by
  have read := samePhase_opUpsets s ups
  unfold completeHelper
  split
  · refine .ite (.refl s) (.ite read (read.trans ?_))
    exact ((h _ _).trans (t := retireSoli _ _) rfl).trans (samePhase_postSync _ _ _)
  · exact .refl s

theorem samePhase_runAttention (s : State) (o : Nat) : SamePhase s (runAttention s o) :=
  .of_cond (congrArg State.cond (runAttention_changes s o) :)

/-! ### Planes, limiter and thermal samples -/

theorem samePhase_refusePower (s : State) : SamePhase s (refusePower s) := by
  unfold refusePower
  exact .ite (.ite rfl rfl) (.ite rfl rfl)

theorem samePhase_planeDown (s : State) (p : Plane) : SamePhase s (planeDown s p) := by
  unfold planeDown
  have down : SamePhase s (s.setPlane p (s.plane p).unpower) := .of_cond (setPlane_cond ..)
  exact .ite (down.trans rfl) down

theorem samePhase_doAction (s : State) (a : Machine.Action) : SamePhase s (doAction s a) := by
  cases a with
  | vcore => rfl
  | bank n => exact .ite rfl rfl
  | held => rfl
  | tutti k => rfl
  | soli k => rfl
  | cluster n => rfl
  | plane p =>
    refine .ite (.ite rfl (.ite (samePhase_refusePower _) ?_)) (samePhase_planeDown _ p)
    exact .of_cond (setPlane_cond ..)

theorem samePhase_runActs (r : List Machine.Action) (n : Nat) (s : State) : SamePhase s (runActs r n s) := by
  induction r generalizing s with
  | nil => exact .refl s
  | cons a r ih => exact .ite (.refl s) ((samePhase_doAction s a).trans (ih _))

theorem samePhase_sampleThermal (s : State) (j : Int) : SamePhase s (sampleThermal s j) := by
  unfold sampleThermal
  extract_lets
  exact .ite (.ite rfl rfl) (.ite rfl rfl)

theorem samePhase_countWarning (s : State) (inj : Bool) : SamePhase s (countWarning s inj) := rfl

/-! ### The event port and the link -/

theorem samePhase_countDrop (s : State) (n : Nat) : SamePhase s (countDrop s n) := .of_cond (congrArg State.cond (countDrop_changes s n) :)

theorem samePhase_pushQ3 (s : State) (type : BitVec 4) (body : List Byte) : SamePhase s (pushQ3 s type body) := .ite rfl (samePhase_countDrop s 1)

/-- A reset begins with step 3 of Table 04-6 where the link is up and the clock runs, and at once elsewhere. -/
theorem beginReset_phase (s : State) (entry : Nat) :
    ((beginReset s entry).cond.phase = .resetEntry ∧ s.duet.link = .up) ∨ (beginReset s entry).cond.phase = .reset := by
  unfold beginReset
  split
  case isTrue linked =>
    rw [Bool.and_eq_true, decide_eq_true_eq] at linked
    refine .inl ⟨?_, linked.1⟩
    extract_lets t _ u
    have begun : u.cond.phase = .resetEntry := rfl
    exact Eq.trans (SamePhase.ite (.refl u) (samePhase_pushQ3 u 9 [1])) begun
  case isFalse => exact .inr rfl

theorem samePhase_duet (s : State) (d : Duet) : SamePhase s { s with duet := d } := rfl

theorem samePhase_linkDown (s : State) (dst : LinkState) : SamePhase s (linkDown s dst) :=
  .of_cond (congrArg State.cond (discardLink_changes s) :)

theorem samePhase_dropFrame (s : State) (e : FrameError) (inj : Bool) : SamePhase s (dropFrame s e inj) := .ite rfl rfl

theorem samePhase_takeAck (s : State) (f : FrameBytes) : SamePhase s (takeAck s f) := by
  unfold takeAck
  refine .ite (.refl s) ?_
  dsimp only
  split
  · exact .ite rfl rfl
  · exact .refl s

theorem samePhase_leaderLoop (s : State) (f : FrameBytes) (time : HeartbeatTime) : SamePhase s (leaderLoop s f time) := by
  unfold leaderLoop
  exact .ite rfl rfl

theorem samePhase_takeLink (s : State) (f : FrameBytes) (time : HeartbeatTime) : SamePhase s (takeLink s f time) := by
  unfold takeLink
  extract_lets +onlyGivenNames _ t fits
  have told : SamePhase s t := rfl
  split
  · exact told.trans rfl
  · refine .ite (told.trans (samePhase_linkDown t _)) ?_
    have acked : SamePhase s (takeAck t f) := told.trans (samePhase_takeAck t f)
    exact .ite (acked.trans (samePhase_leaderLoop _ f time)) acked
  · exact told

theorem samePhase_takeMessage (s : State) (f : FrameBytes) {act : State → State} (h : ∀ u, SamePhase u (act u)) :
    SamePhase s (takeMessage s f act) := by
  unfold takeMessage
  extract_lets q t u
  have acked : SamePhase s u := (samePhase_takeAck s f).trans rfl
  exact .ite rfl (.ite acked (acked.trans (h _)))

theorem samePhase_conductorWork (s : State) (wake : Bool) (ups : List Upset) : SamePhase s (conductorWork s wake ups) :=
  (congrArg (fun x : State => x.cond.phase) (Slot444.conductorWork_frame s wake ups) :)

end Sys2Proof.Phases
end

section
/-!
What a module in Tacet answers to each command (R84, R87, R90): O9.
-/
namespace Sys2Proof.Phases

open Sys2Proof.Machine Sys2Proof.Laws Sys2Proof.Stages Sys2Proof.Frames

/-- The commands that can end Tacet. -/
inductive Exit : Instr → Prop where
  | aonPowerOn : Exit .aonPowerOn
  | aonLoss : Exit .aonLoss
  | vioInvalid : Exit .vioInvalid
  | rstNLow : Exit .rstNLow
  | vinBelowVrst : Exit .vinBelowVrst
  | vcoreCollapse : Exit .vcoreCollapse
  | wakeHighInTacet : Exit .wakeHighInTacet
  | aonWakeTimer : Exit .aonWakeTimer

/-- What a command answers is a state in Tacet. -/
def Rests (o : Result) : Prop := ∀ t, o = .next t → t.cond.phase = .tacet

theorem Rests.next {t : State} (h : t.cond.phase = .tacet) : Rests (.next t) := fun _ e => Host.Outcome.next.inj e ▸ h

theorem Rests.refused (r : Refusal) : Rests (.refused r) := by
  intro t e
  injection e

theorem Rests.ite {a b : Result} {c : Prop} [Decidable c] (x : Rests a) (y : Rests b) : Rests (if c then a else b) := by
  split
  · exact x
  · exact y

section
variable {s : State} (rest : s.cond.phase = .tacet)
include rest

theorem Rests.same {t : State} (h : SamePhase s t) : Rests (.next t) := .next (Eq.trans h rest)

theorem Rests.guarded {t : State} {c : Prop} [Decidable c] (h : SamePhase s t) : Rests (if c then .next t else .next s) :=
  .ite (.same rest h) (.next rest)

/-- A command whose condition does not hold in Tacet. -/
theorem Rests.skipped {a : Result} {c : Prop} [Decidable c] (out : ¬c) : Rests (if c then a else .next s) := by
  rw [if_neg out]
  exact .next rest

/-! ### What does not go on in Tacet -/

theorem not_running : s.running = false := by
  unfold State.running
  rw [rest]
  rfl

theorem not_counting : s.counting = false := by
  unfold State.counting
  rw [rest]
  exact Bool.and_false _

theorem not_slotDone : slotDone s = false := by
  unfold slotDone
  rw [not_counting rest]
  rfl

theorem not_inStep3 : s.inStep3 = false := by
  unfold State.inStep3
  rw [rest]
  rfl

/-- What only a running module does. -/
theorem ite_running (t : State) : (if s.running then t else s) = s := by
  rw [not_running rest]
  exact if_neg Bool.false_ne_true

/-- What a step of Tacet entry does. -/
theorem ite_tacetEntry (n : Nat) (t : State) : (if s.cond.phase = .tacetEntry n then t else s) = s := by
  refine if_neg ?_
  rw [rest]
  exact Phase.noConfusion

theorem samePhase_endFixed : SamePhase s (endFixed s) := by
  unfold endFixed
  rw [not_running rest, Bool.and_false, if_neg Bool.false_ne_true]
  exact .refl s

theorem samePhase_followBar (f : FrameBytes) (arrival : Int) : SamePhase s (followBar s f arrival) := by
  unfold followBar
  rw [not_running rest]
  exact .refl s

theorem samePhase_followHeartbeat : SamePhase s (followHeartbeat s) := by
  unfold followHeartbeat
  rw [not_running rest]
  exact .refl s

theorem samePhase_sendMessage (m : Msg) (l : List Msg) : SamePhase s (sendMessage s m l) := by
  unfold sendMessage
  extract_lets d f go t
  have sent : SamePhase s t := rfl
  rw [not_inStep3 (Eq.trans sent rest), Bool.false_and, if_neg Bool.false_ne_true]
  exact sent

/-! ### Soli instructions -/

theorem rests_issue (c : Ctx) (i : Instr) {f : Section → State} (h : ∀ x, SamePhase s (f x)) : Rests (issue s c i f) := by
  unfold issue
  cases s.section c with
  | some x => exact .guarded rest (h x)
  | none => exact .next rest

theorem rests_writing (c : Ctx) (i : Instr) (g : Guard) (d : Reg) (f : Section → Fin 16 → Lane → Word) :
    Rests (issue s c i fun x => writeReg s c x g d (f x)) := rests_issue rest c i fun _ => rfl

theorem rests_deciding (c : Ctx) (i : Instr) (g : Guard) (d : BitVec 3) (f : Section → Lane → Bool) :
    Rests (issue s c i fun x => writePred s c x g d (f x)) := rests_issue rest c i fun _ => rfl

theorem rests_load (c : Ctx) (i : Instr) (g : Guard) (d a : Reg) (size : Nat) (sign : Bool) (off : BitVec 10) (lc : BitVec 2) (ups : List Upset) :
    Rests (loadOp s c i g d a size sign off lc ups) :=
  rests_issue rest c i fun _ => .ite (.refl s) ((samePhase_readErrors s _ ups).trans rfl)

theorem rests_store (c : Ctx) (i : Instr) (g : Guard) (d a : Reg) (size : Nat) (off : BitVec 10) (ups : List Upset) :
    Rests (storeOp s c i g d a size off ups) :=
  rests_issue rest c i fun _ =>
    (SamePhase.foldl _ _ (fun u _ => samePhase_storeLane u _ _ _) (samePhase_readErrors s _ ups)).trans rfl

theorem rests_constant (c : Ctx) (g : Guard) (d a : Reg) (off : BitVec 10) (lc : BitVec 2) (ups : List Upset) :
    Rests (execLdc c g d a off lc ups s) :=
  rests_issue rest c _ fun _ => .ite (.refl s) (SamePhase.trans (t := s.setSection c _) rfl (samePhase_romErrors _ _ ups))

theorem rests_loadReturn (c : Ctx) (k : Nat) (lanes : BitVec 16) : Rests (execLoadReturn c k lanes s) := by
  unfold execLoadReturn
  split
  · split
    · exact .same rest rfl
    · exact .next rest
  · exact .next rest

theorem rests_endThreads (c : Ctx) (g : Guard) (ups : List Upset) : Rests (execEndThreads c g ups s) := by
  unfold execEndThreads
  split
  · exact .guarded rest (SamePhase.trans (t := s.setSection c _) rfl (samePhase_romErrors _ _ ups))
  · exact .next rest

theorem rests_cwait (c : Ctx) (g : Guard) (cue : BitVec 7) (a : Reg) : Rests (execCwait c g cue a s) :=
  rests_issue rest c _ fun x => by
    cases x.actList g with
    | nil => rfl
    | cons k r => exact .ite rfl (.refl s)

theorem rests_cpost (c : Ctx) (g : Guard) (cue : BitVec 7) (inc : BitVec 9) (ups : List Upset) : Rests (execCpost c g cue inc ups s) :=
  rests_issue rest c _ fun x =>
    have h : SamePhase s (s.setSection c x.advance) := rfl
    .ite h (h.trans (samePhase_postReading _ _ _ ups))

/-! ### Power, supplies and planes -/

theorem rests_vwarnTrip : Rests (execVwarnTrip s) := by
  unfold execVwarnTrip
  extract_lets _ t u
  have low : SamePhase s t := rfl
  have counted : SamePhase s u := low.trans (samePhase_countWarning t false)
  rw [ite_running (Eq.trans counted rest)]
  exact .ite (.same rest low) (.same rest counted)

theorem rests_vcoreUndervoltage : Rests (execVcoreUndervoltage s) := by
  unfold execVcoreUndervoltage
  rw [not_running rest]
  exact .next rest

theorem rests_fermataEntry : Rests (execFermataEntry s) := by
  unfold execFermataEntry
  rw [not_running rest]
  split
  · exact .next rest
  · exact .next rest

theorem rests_fermataEnd : Rests (execFermataEnd s) := by
  unfold execFermataEnd
  extract_lets _ t
  have low : t.cond.phase = .tacet := rest
  rw [not_running low]
  split
  · exact .next low
  · exact .next low

theorem rests_limiterTick : Rests (execLimiterTick s) := by
  unfold execLimiterTick
  extract_lets l t u _ v
  have acted : SamePhase s u := SamePhase.trans (t := t) rfl (samePhase_runActs _ _ t)
  have off : v.cond.phase = .tacet := Eq.trans acted rest
  rw [ite_tacetEntry off]
  exact .ite (.next rest) (.ite (.next off) (.same rest acted))

theorem rests_imagerStepDone (p : Plane) (e : PowerUpEnd) : Rests (execImagerStepDone p e s) :=
  .ite (.refused _) (.guarded rest (.of_cond (setPlane_cond ..)))

theorem rests_vpixDischarged : Rests (execVpixDischarged s) := by
  unfold execVpixDischarged
  extract_lets +onlyGivenNames _ _ _ t
  have off : SamePhase s t := rfl
  rw [ite_tacetEntry (Eq.trans off rest)]
  exact .guarded rest off

theorem rests_planeRestart : Rests (execPlaneRestart s) := by
  have set {t : State} (k : SamePhase s t) (p : Plane) (x : PlaneState) : SamePhase s (t.setPlane p x) := k.trans (.of_cond (setPlane_cond ..))
  have due (m : Metro) : SamePhase s { s with metro := m } := rfl
  refine .ite (.ite (.same rest (samePhase_refusePower _)) (.same rest ?_)) (.next rest)
  exact SamePhase.trans (.ite (set (.ite (set (due _) .w _) (due _)) .h _) (.ite (set (due _) .w _) (due _))) rfl

/-! ### Completion -/

theorem rests_kernelComplete (k : Nat) (ups : List Upset) : Rests (execKernelComplete k ups s) := by
  unfold execKernelComplete
  split
  · exact .guarded rest (samePhase_withRomErrors s ups fun u => SamePhase.trans (t := retireSoli u _) rfl (samePhase_postSync _ _ ups))
  · exact .next rest

theorem rests_tuttiDescriptorComplete (ups : List Upset) : Rests (execTuttiDescriptorComplete ups s) := by
  have read := samePhase_opUpsets s ups
  have ran (i : Nat) : SamePhase s (runDescriptor (opUpsets s ups).1 i).s := read.trans (samePhase_of_tallied (tallied_runDescriptor _ i))
  unfold execTuttiDescriptorComplete
  split
  · refine .ite (.next rest) (.ite (.same rest read) (.same rest ?_))
    exact (samePhase_exec (ran _) _).trans (samePhase_postSync _ _ _)
  · exact .next rest

/-! ### The Duet link -/

theorem rests_receive (type : Nat) (f : FrameBytes) {act : State → State} (h : ∀ u, u.cond.phase = .tacet → SamePhase u (act u)) :
    Rests (receive s type f act) := by
  unfold receive
  refine .ite (.next rest) (.ite (.same rest (samePhase_dropFrame s _ _)) ?_)
  split
  · exact .same rest (samePhase_dropFrame s _ _)
  · exact .guarded rest (h _ rest)

theorem rests_message (type : Nat) (f : FrameBytes) {act : State → State} (h : ∀ u, SamePhase u (act u)) :
    Rests (receive s type f fun s => takeMessage s f act) := rests_receive rest type f fun u _ => samePhase_takeMessage u f h

theorem rests_bar (f : FrameBytes) (arrival : Int) : Rests (execBar f arrival s) :=
  rests_receive rest 1 f fun u phase =>
    have taken : SamePhase u (takeLink u f ⟨false, arrival⟩) := samePhase_takeLink u f _
    .ite (taken.trans (samePhase_followBar (Eq.trans taken phase) f arrival)) taken

theorem rests_heartbeat (f : FrameBytes) (time : HeartbeatTime) : Rests (execHeartbeat f time s) :=
  rests_receive rest 2 f fun u phase =>
    have taken : SamePhase u (takeLink u f time) := samePhase_takeLink u f time
    taken.trans (samePhase_followHeartbeat (Eq.trans taken phase))

theorem rests_verdict (f : FrameBytes) : Rests (execVerdict f s) := by
  refine rests_message rest 3 f fun u => ?_
  exact .ite (samePhase_duet u _) (.refl u)

theorem rests_recA (f : FrameBytes) : Rests (execRecA f s) := rests_message rest 4 f fun u => samePhase_duet u _

theorem rests_wake (f : FrameBytes) : Rests (execWake f s) := rests_message rest 6 f fun u => samePhase_duet u _

theorem rests_swapReq (f : FrameBytes) : Rests (execSwapReq f s) := by
  refine rests_message rest 7 f fun u => ?_
  exact .ite (samePhase_duet u _) (.refl u)

theorem rests_swapGo (f : FrameBytes) : Rests (execSwapGo f s) := by
  refine rests_message rest 8 f fun u => ?_
  exact .ite (samePhase_duet u _) (.refl u)

theorem rests_notice (f : FrameBytes) : Rests (execNotice f s) := by
  refine rests_message rest 9 f fun u => ?_
  exact (samePhase_linkDown u .seeking).trans (samePhase_duet _ _)

theorem rests_recB (f : FrameBytes) : Rests (execRecB f s) :=
  rests_message rest 5 f fun u => by
    dsimp only
    split
    · exact .ite rfl (samePhase_countDrop _ 1)
    · exact .refl u

theorem rests_invalidFrame (e : FrameError) : Rests (execInvalidFrame e s) :=
  .ite (.next rest) (.ite (.same rest (samePhase_dropFrame s _ _)) (.same rest (samePhase_dropFrame s _ _)))

theorem rests_frameTransmit : Rests (execFrameTransmit s) := by
  have link : SamePhase s (sendLink s 2) := rfl
  refine .ite (.next rest) (.ite (.same rest (.ite link (.refl s))) ?_)
  split
  · exact .ite (.same rest link) (.same rest rfl)
  · split
    · exact .same rest (samePhase_sendMessage rest _ _)
    · exact .guarded rest link

theorem rests_retransmitTimeout (seq : BitVec 4) : Rests (execRetransmitTimeout seq s) := by
  unfold execRetransmitTimeout
  split
  · refine .ite (.next rest) (.ite (.same rest rfl) (.same rest ?_))
    have dropped (l : List Flight) : SamePhase s (countDrop { s with duet := { s.duet with flight := l } } 1) := samePhase_countDrop _ 1
    exact .ite ((dropped _).trans (samePhase_linkDown _ _)) (dropped _)
  · exact .next rest

/-! ### Flailo -/

theorem rests_wellFormed (i : Instr) (name : String) {t : State} (h : SamePhase s t) : Rests (wellFormed i name t) :=
  .ite (.same rest h) (.refused _)

/-- The protocol is open in Flailo mode only. -/
theorem command_closed (op : Byte) (h : FlailoHead) (lenOk : Bool) (act : State → State) : command s op h lenOk act = s := by
  unfold command
  rw [rest]
  rfl

theorem rests_command (i : Instr) (name : String) (op : Byte) (h : FlailoHead) (lenOk : Bool) (act : State → State) :
    Rests (wellFormed i name (command s op h lenOk act)) := by
  rw [command_closed rest]
  exact rests_wellFormed rest i name (.refl s)

theorem rests_flailoUnknownOpcode (op : Byte) (h : FlailoHead) : Rests (execFlailoUnknownOpcode op h s) :=
  rests_wellFormed rest _ _ (.ite (.refl s) (by rw [command_closed rest]; exact .refl s))

/-! ### Verification, slots and records -/

theorem rests_digestVerification (wake : Bool) (ups : List Upset) : Rests (execDigestVerification wake ups s) := by
  unfold execDigestVerification
  rw [rest]
  exact .next rest

theorem rests_thermalSample (j : Int) : Rests (execThermalSample j s) :=
  have sampled : SamePhase s (sampleThermal (dropDue s .thermal) j) := SamePhase.trans (t := dropDue s .thermal) rfl (samePhase_sampleThermal _ j)
  .guarded rest (sampled.trans (samePhase_endFixed (Eq.trans sampled rest)))

theorem rests_heartbeatSend : Rests (execHeartbeatSend s) :=
  .guarded rest (samePhase_endFixed (s := sendLink (dropDue s .heartbeat) 2) rest)

theorem rests_queueDispatch (q : QueueRead) : Rests (execQueueDispatch q s) :=
  .ite (.same rest (.ite (.refl s) (samePhase_withRomErrors s q.ups samePhase_dispatchSoli)))
    (.same rest (.ite (.refl s) (samePhase_withRomErrors s q.ups samePhase_dispatchTutti)))

theorem rests_tokenRefill (n : Nat) : Rests (execTokenRefill n s) := by
  unfold execTokenRefill
  split
  · exact .guarded rest rfl
  · exact .next rest

theorem rests_recordRelease : Rests (execRecordRelease s) := by
  unfold execRecordRelease
  exact .ite (.same rest rfl) (.ite (.same rest rfl) (.ite (.same rest rfl) (.same rest rfl)))

theorem rests_eventPortTransaction (n : Nat) : Rests (execEventPortTransaction n s) := by
  unfold execEventPortTransaction
  refine .ite ?_ (.next rest)
  split
  · exact .same rest rfl
  · exact .same rest rfl

/-! ### The haptic driver -/

theorem rests_effectStart (vin : Nat) : Rests (execEffectStart vin s) := by
  unfold execEffectStart
  extract_lets
  split
  · exact .guarded rest rfl
  · split
    · exact .guarded rest rfl
    · exact .next rest
  · exact .next rest

theorem rests_halfCycleEnd (vin : Nat) (emf : Bool) : Rests (execHalfCycleEnd vin emf s) := by
  unfold execHalfCycleEnd
  extract_lets
  split
  · exact .same rest rfl
  · exact .same rest rfl
  · exact .same rest rfl
  · exact .next rest

theorem rests_backEmf (gap : Rat) : Rests (execBackEmfZeroCrossing gap s) := by
  unfold execBackEmfZeroCrossing
  extract_lets a play
  have played (e : Nat) : Rests (play e) := .same rest rfl
  refine .ite (.next rest) ?_
  split
  · exact played _
  · exact played _
  · exact played _
  · exact .next rest

theorem rests_brakeEnd (quiet : Bool) : Rests (execBrakeEnd quiet s) := by
  unfold execBrakeEnd
  extract_lets
  split
  · exact .same rest rfl
  · exact .next rest

/-! ### Every command -/

/-- Every other command leaves the module in Tacet. -/
theorem exit_or_rests (c : Instr) : Exit c ∨ Rests (exec c s) :=
  match c with
  | .aonPowerOn => .inl .aonPowerOn
  | .aonLoss => .inl .aonLoss
  | .supervisionStart x => .inr (.skipped rest (by rw [rest]; exact Bool.false_ne_true))
  | .resetPairReading _ _ => .inr (.skipped rest (by rw [rest]; exact Bool.false_ne_true))
  | .selChangeDigestRead x => .inr (.skipped rest (by rw [rest]; exact Bool.false_ne_true))
  | .vioValid => .inr (.same rest rfl)
  | .vioInvalid => .inl .vioInvalid
  | .rstNLow => .inl .rstNLow
  | .vinBelowVrst => .inl .vinBelowVrst
  | .vcoreCollapse => .inl .vcoreCollapse
  | .latchMoment l v => .inr (.skipped rest (by rw [rest]; exact Bool.false_ne_true))
  | .digestVerification wake ups => .inr (rests_digestVerification rest wake ups)
  | .imagerStepDone p e => .inr (rests_imagerStepDone rest p e)
  | .limiterTick => .inr (rests_limiterTick rest)
  | .slotBoundary w h x => .inr (.skipped rest (by rw [not_slotDone rest]; exact Bool.false_ne_true))
  | .abandonAndScrub => .inr (.skipped rest (by rw [not_counting rest]; exact Bool.false_ne_true))
  | .barStart => .inr (.skipped rest (by rw [not_slotDone rest]; exact Bool.false_ne_true))
  | .exposureStart p => .inr (.skipped rest (by rw [not_running rest]; exact Bool.false_ne_true))
  | .thermalSample j => .inr (rests_thermalSample rest j)
  | .rubatoSenseInjectSample _ _ _ => .inr (.guarded rest rfl)
  | .leakSample _ => .inr (.guarded rest rfl)
  | .conductorSlot444 wake ups => .inr (.ite (.next rest) (.same rest (samePhase_withRomErrors s ups fun u => samePhase_conductorWork u wake ups)))
  | .tacetEventPortDrain elapsed => .inr (.skipped rest (by rw [rest]; exact Bool.false_ne_true))
  | .tacetEntryEnd => .inr (.skipped rest (by rw [rest]; exact Phase.noConfusion))
  | .wakeHighInTacet => .inl .wakeHighInTacet
  | .aonWakeTimer => .inl .aonWakeTimer
  | .vwarnTrip => .inr (rests_vwarnTrip rest)
  | .fermataEntry => .inr (rests_fermataEntry rest)
  | .vcoreUndervoltage => .inr (rests_vcoreUndervoltage rest)
  | .fermataEnd => .inr (rests_fermataEnd rest)
  | .ledInterlockMet => .inr (.guarded rest rfl)
  | .ledInterlockOpen current forward => .inr (.guarded rest rfl)
  | .vpixDischarged => .inr (rests_vpixDischarged rest)
  | .privNFall => .inr (.same rest rfl)
  | .planeRestart => .inr (rests_planeRestart rest)
  | .refClkEdge n => .inr (.guarded rest rfl)
  | .refClkTimeout => .inr (.guarded rest rfl)
  | .trimRunEnd n => .inr (.guarded rest rfl)
  | .tokenRefill n => .inr (rests_tokenRefill rest n)
  | .recordRelease => .inr (rests_recordRelease rest)
  | .eventPortTransaction n => .inr (rests_eventPortTransaction rest n)
  | .post cue inc ups => .inr (.guarded rest (samePhase_postReading _ _ _ ups))
  | .launchT i => .inr (.ite (.ite (.same rest rfl) (.same rest rfl)) (.next rest))
  | .launchS i => .inr (.ite (.ite (.same rest rfl) (.same rest rfl)) (.next rest))
  | .sample chg level => .inr (.guarded rest rfl)
  | .mark begins => .inr (.guarded rest rfl)
  | .queueDispatch q => .inr (rests_queueDispatch rest q)
  | .tuttiDescriptorComplete ups => .inr (rests_tuttiDescriptorComplete rest ups)
  | .kernelComplete k ups => .inr (rests_kernelComplete rest k ups)
  | .cropJobComplete ups => .inr (.same rest (samePhase_completeHelper s 1 ups fun u o => samePhase_of_stored (stored_runCrop u o)))
  | .sieveJobComplete ups => .inr (.same rest (samePhase_completeHelper s 2 ups fun u o => samePhase_of_stored (stored_runSieve u o)))
  | .attentionJobComplete ups => .inr (.same rest (samePhase_completeHelper s 3 ups samePhase_runAttention))
  | .endThreads c g ups => .inr (rests_endThreads rest c g ups)
  | .add _ _ _ _ _ => .inr (rests_writing rest _ _ _ _ _)
  | .sub _ _ _ _ _ => .inr (rests_writing rest _ _ _ _ _)
  | .mul _ _ _ _ _ => .inr (rests_writing rest _ _ _ _ _)
  | .mulh _ _ _ _ _ => .inr (rests_writing rest _ _ _ _ _)
  | .mac _ _ _ _ _ => .inr (rests_writing rest _ _ _ _ _)
  | .dot4s _ _ _ _ _ => .inr (rests_writing rest _ _ _ _ _)
  | .dot4us _ _ _ _ _ => .inr (rests_writing rest _ _ _ _ _)
  | .and _ _ _ _ _ => .inr (rests_writing rest _ _ _ _ _)
  | .or _ _ _ _ _ => .inr (rests_writing rest _ _ _ _ _)
  | .xor _ _ _ _ _ => .inr (rests_writing rest _ _ _ _ _)
  | .shl _ _ _ _ _ => .inr (rests_writing rest _ _ _ _ _)
  | .shr _ _ _ _ _ => .inr (rests_writing rest _ _ _ _ _)
  | .sra _ _ _ _ _ => .inr (rests_writing rest _ _ _ _ _)
  | .min _ _ _ _ _ => .inr (rests_writing rest _ _ _ _ _)
  | .max _ _ _ _ _ => .inr (rests_writing rest _ _ _ _ _)
  | .minu _ _ _ _ _ => .inr (rests_writing rest _ _ _ _ _)
  | .maxu _ _ _ _ _ => .inr (rests_writing rest _ _ _ _ _)
  | .abs _ _ _ _ => .inr (rests_writing rest _ _ _ _ _)
  | .lzc _ _ _ _ => .inr (rests_writing rest _ _ _ _ _)
  | .sel _ _ _ _ _ _ => .inr (rests_writing rest _ _ _ _ _)
  | .shfl _ _ _ _ _ => .inr (rests_writing rest _ _ _ _ _)
  | .rshr _ _ _ _ _ => .inr (rests_writing rest _ _ _ _ _)
  | .rsc _ _ _ _ _ => .inr (rests_writing rest _ _ _ _ _)
  | .clamp _ _ _ _ _ => .inr (rests_writing rest _ _ _ _ _)
  | .bra c _ _ => .inr (rests_issue rest c _ fun _ => rfl)
  | .rpush c _ => .inr (rests_issue rest c _ fun _ => rfl)
  | .rsync c => .inr (rests_issue rest c _ fun _ => rfl)
  | .park c _ => .inr (rests_issue rest c _ fun _ => rfl)
  | .ldc c g d a off lc ups => .inr (rests_constant rest c g d a off lc ups)
  | .addi _ _ _ _ _ => .inr (rests_writing rest _ _ _ _ _)
  | .andi _ _ _ _ _ => .inr (rests_writing rest _ _ _ _ _)
  | .ori _ _ _ _ _ => .inr (rests_writing rest _ _ _ _ _)
  | .xori _ _ _ _ _ => .inr (rests_writing rest _ _ _ _ _)
  | .shli _ _ _ _ _ => .inr (rests_writing rest _ _ _ _ _)
  | .shri _ _ _ _ _ => .inr (rests_writing rest _ _ _ _ _)
  | .srai _ _ _ _ _ => .inr (rests_writing rest _ _ _ _ _)
  | .lui _ _ _ _ => .inr (rests_writing rest _ _ _ _ _)
  | .sreg _ _ _ _ => .inr (rests_writing rest _ _ _ _ _)
  | .cmp _ _ _ _ _ _ => .inr (rests_deciding rest _ _ _ _ _)
  | .cmpi _ _ _ _ _ _ => .inr (rests_deciding rest _ _ _ _ _)
  | .plog _ _ _ _ _ _ => .inr (rests_deciding rest _ _ _ _ _)
  | .vote _ _ _ _ _ => .inr (rests_deciding rest _ _ _ _ _)
  | .ldw _ _ _ _ _ _ _ => .inr (rests_load rest _ _ _ _ _ _ _ _ _ _)
  | .ldh _ _ _ _ _ _ _ => .inr (rests_load rest _ _ _ _ _ _ _ _ _ _)
  | .ldhu _ _ _ _ _ _ _ => .inr (rests_load rest _ _ _ _ _ _ _ _ _ _)
  | .ldb _ _ _ _ _ _ _ => .inr (rests_load rest _ _ _ _ _ _ _ _ _ _)
  | .ldbu _ _ _ _ _ _ _ => .inr (rests_load rest _ _ _ _ _ _ _ _ _ _)
  | .loadReturn c k lanes => .inr (rests_loadReturn rest c k lanes)
  | .stw _ _ _ _ _ _ => .inr (rests_store rest _ _ _ _ _ _ _ _)
  | .sth _ _ _ _ _ _ => .inr (rests_store rest _ _ _ _ _ _ _ _)
  | .stb _ _ _ _ _ _ => .inr (rests_store rest _ _ _ _ _ _ _ _)
  | .waitlc c g count lc => .inr (rests_issue rest c _ fun _ => .ite (.refl s) rfl)
  | .exp _ _ _ _ => .inr (rests_writing rest _ _ _ _ _)
  | .rcp _ _ _ _ => .inr (rests_writing rest _ _ _ _ _)
  | .rsq _ _ _ _ => .inr (rests_writing rest _ _ _ _ _)
  | .cwait c g cue a => .inr (rests_cwait rest c g cue a)
  | .cpost c g cue inc ups => .inr (rests_cpost rest c g cue inc ups)
  | .scanStart chg => .inr (.skipped rest (by rw [not_running rest]; exact Bool.false_ne_true))
  | .scanComplete chips noise => .inr (.ite (.refused _) (.skipped rest (by rw [not_running rest]; exact Bool.false_ne_true)))
  | .effectStart vin => .inr (rests_effectStart rest vin)
  | .halfCycleEnd vin emf => .inr (rests_halfCycleEnd rest vin emf)
  | .backEmfZeroCrossing gap => .inr (rests_backEmf rest gap)
  | .brakeEnd quiet => .inr (rests_brakeEnd rest quiet)
  | .heartbeatSend => .inr (rests_heartbeatSend rest)
  | .frameTransmit => .inr (rests_frameTransmit rest)
  | .bar f arrival => .inr (rests_bar rest f arrival)
  | .heartbeat f time => .inr (rests_heartbeat rest f time)
  | .verdict f => .inr (rests_verdict rest f)
  | .recA f => .inr (rests_recA rest f)
  | .recB f => .inr (rests_recB rest f)
  | .wake f => .inr (rests_wake rest f)
  | .swapReq f => .inr (rests_swapReq rest f)
  | .swapGo f => .inr (rests_swapGo rest f)
  | .notice f => .inr (rests_notice rest f)
  | .invalidFrame e => .inr (rests_invalidFrame rest e)
  | .retransmitTimeout seq => .inr (rests_retransmitTimeout rest seq)
  | .partnerSilenceTimeout => .inr (.guarded rest (SamePhase.trans (t := trip s 13 false _) rfl (samePhase_linkDown _ .seeking)))
  | .swapGoWithdraw => .inr (.guarded rest rfl)
  | .acquisitionHoldTimeout => .inr (.skipped rest (by rw [not_running rest]; exact Bool.false_ne_true))
  | .load h vpp fails => .inr (rests_command rest _ _ _ h _ _)
  | .verify h => .inr (rests_command rest _ _ _ h _ _)
  | .darkCal h led frames resp => .inr (rests_command rest _ _ _ h _ _)
  | .touchCal h scans => .inr (rests_command rest _ _ _ h _ _)
  | .calWrite h vpp fails => .inr (rests_command rest _ _ _ h _ _)
  | .read h => .inr (rests_command rest _ _ _ h _ _)
  | .seal h => .inr (rests_command rest _ _ _ h _ _)
  | .info h => .inr (rests_command rest _ _ _ h _ _)
  | .privNRise => .inr (.same rest rfl)
  | .acquisitionHoldSample pad j => .inr (.skipped rest (by rw [not_running rest]; exact Bool.false_ne_true))
  | .coreBaseStepComplete => .inr (.skipped rest (by rw [rest]; exact Phase.noConfusion))
  | .flailoUnknownOpcode op h => .inr (rests_flailoUnknownOpcode rest op h)

/-! ### The exits -/

theorem rstNLow_phase {t : State} (h : exec .rstNLow s = .next t) : t.cond.phase = (beginReset s 1).cond.phase := by
  replace h : execRstNLow s = .next t := h
  unfold execRstNLow at h
  rw [rest] at h
  exact Host.Outcome.next.inj h ▸ rfl

theorem vioInvalid_next {t : State} (h : exec .vioInvalid s = .next t) :
    t = beginReset { s with supply := { s.supply with vio := false } } 3 := by
  replace h : execVioInvalid s = .next t := h
  unfold execVioInvalid at h
  dsimp only at h
  rw [rest] at h
  exact (Host.Outcome.next.inj h).symm

/-- A command that does its work under a condition, or leaves the state alone. -/
theorem stays_or {a t : State} {c : Prop} [Decidable c] (h : (if c then .next a else .next s : Result) = .next t) :
    t.cond.phase = .tacet ∨ (c ∧ t = a) := by
  split at h
  case isTrue go => exact .inr ⟨go, (Host.Outcome.next.inj h).symm⟩
  case isFalse => exact .inl (Host.Outcome.next.inj h ▸ rest)

theorem aonPowerOn_phase {t : State} (h : exec .aonPowerOn s = .next t) : t.cond.phase = .tacet ∨ (t.cond.phase = .reset ∧ s.aon.on = false) := by
  replace h : execAonPowerOn s = .next t := h
  unfold execAonPowerOn at h
  split at h
  case isTrue => exact .inl (Host.Outcome.next.inj h ▸ rest)
  case isFalse off => exact .inr ⟨Host.Outcome.next.inj h ▸ rfl, Bool.not_eq_true _ ▸ off⟩

end

/-- Settles O9: every command but eight leaves the module in Tacet, and each of the eight takes its own way out. -/
theorem tacetLeft : Obligations.TacetLeft := by
  intro c s t rest run
  obtain exit | stays := exit_or_rests rest c
  · cases exit with
    | aonPowerOn =>
      obtain stays | ⟨phase, off⟩ := aonPowerOn_phase rest run
      · exact .inl stays
      · exact .inr (.inr (.inl ⟨phase, .inr (.inr (.inr (.inr ⟨rfl, off⟩)))⟩))
    | aonLoss =>
      obtain stays | ⟨_, rfl⟩ := stays_or rest run
      · exact .inl stays
      · exact .inr (.inr (.inr (.inr ⟨rfl, rfl⟩)))
    | vioInvalid =>
      rw [vioInvalid_next rest run]
      obtain ⟨phase, linked⟩ | phase := beginReset_phase { s with supply := { s.supply with vio := false } } 3
      · exact .inr (.inr (.inr (.inl ⟨phase, .inr rfl, linked⟩)))
      · exact .inr (.inr (.inl ⟨phase, .inr (.inl rfl)⟩))
    | rstNLow =>
      rw [rstNLow_phase rest run]
      obtain ⟨phase, linked⟩ | phase := beginReset_phase s 1
      · exact .inr (.inr (.inr (.inl ⟨phase, .inl rfl, linked⟩)))
      · exact .inr (.inr (.inl ⟨phase, .inl rfl⟩))
    | vinBelowVrst =>
      obtain stays | ⟨_, rfl⟩ := stays_or rest run
      · exact .inl stays
      · exact .inr (.inr (.inl ⟨rfl, .inr (.inr (.inl rfl))⟩))
    | vcoreCollapse =>
      obtain stays | ⟨_, rfl⟩ := stays_or rest run
      · exact .inl stays
      · exact .inr (.inr (.inl ⟨rfl, .inr (.inr (.inr (.inl rfl)))⟩))
    | wakeHighInTacet =>
      obtain stays | ⟨due, rfl⟩ := stays_or rest run
      · exact .inl stays
      · rw [Bool.and_eq_true, Bool.not_eq_true'] at due
        exact .inr (.inl ⟨rfl, due.2, .inl rfl⟩)
    | aonWakeTimer =>
      obtain stays | ⟨due, rfl⟩ := stays_or rest run
      · exact .inl stays
      · rw [Bool.and_eq_true, Bool.and_eq_true, Bool.not_eq_true'] at due
        obtain ⟨⟨_, unlocked⟩, expired⟩ := due
        exact .inr (.inl ⟨rfl, unlocked, .inr ⟨rfl, expired⟩⟩)
  · exact .inl (stays t run)

end Sys2Proof.Phases
end

section
/-!
SUPPORT. What a store leaves of a word in error (R359), and which bytes a data write of an engine reaches (R82, R139).
-/
namespace Sys2Proof.OpenWrites

open Sys2Proof.Machine Sys2Proof.Laws

/-! ### Words in error -/

theorem store_bad_short {r : Ram} {w : Nat} {bs : List (Nat × Byte)} (bad : w ∈ r.bad) (short : bs.length < 8) : r.store w bs = r := by
  unfold Ram.store
  rw [if_neg (by omega), if_pos (by simpa using bad)]

/-- The memory without the error of word `w`. -/
def healed (r : Ram) (w : Nat) : Ram := { r with bad := numErase r.bad w }

theorem notMem_healed (r : Ram) (w : Nat) : w ∉ (healed r w).bad := by simp [healed, numErase]

theorem healed_wf {r : Ram} (w : Nat) (wf : r.wf = true) : (healed r w).wf = true := by
  obtain ⟨cells, flags, bad, written, marked⟩ := (ram_wf_iff r).1 wf
  exact (ram_wf_iff _).2 ⟨cells, flags, rising_filter _ _ bad, written, fun x mem => marked x (List.mem_filter.1 mem).1⟩

theorem store_whole (r : Ram) (w : Nat) {bs : List (Nat × Byte)} (whole : 8 ≤ bs.length) : r.store w bs = (healed r w).put w bs := by
  unfold Ram.store
  rw [if_pos whole]
  rfl

theorem errorStaysUntilWritten : Part.ErrorStaysUntilWritten := by
  refine ⟨fun r w bs => store_bad_short, fun r w vs wf whole => ?_, fun s => rfl⟩
  rw [store_whole r w (by rw [List.length_mapIdx]; omega)]
  refine ⟨notMem_healed r w, fun i hi => ?_⟩
  have inWord : ∀ x ∈ vs.mapIdx fun i b => (8 * w + i, b), x.1 / 8 = w := by
    intro x mem
    obtain ⟨k, _, rfl⟩ := List.mem_mapIdx.1 mem
    show (8 * w + k) / 8 = w
    omega
  rw [read_put _ _ _ _ (healed_wf w wf) inWord (notMem_healed r w), lastByte_mapIdx, if_pos (by omega), Nat.add_sub_cancel_left]

/-! ### The words of a data write -/

theorem mem_fromTo {a b w : Nat} : w ∈ fromTo a b ↔ a ≤ w ∧ w ≤ b := by
  simp only [fromTo, List.mem_map, List.mem_range]
  constructor
  · rintro ⟨k, lt, rfl⟩
    omega
  · rintro ⟨lower, upper⟩
    exact ⟨w - a, by omega, by omega⟩

theorem nodup_fromTo (a b : Nat) : (fromTo a b).Nodup := List.nodup_range.map (add_right_injective a)

/-- Those of the stored bytes that lie in word `w`. -/
def bytesIn (cells : List (Nat × Byte)) (w : Nat) : List (Nat × Byte) := cells.filter fun x => x.1 / 8 = w

theorem bytesIn_word (cells : List (Nat × Byte)) (w : Nat) : ∀ x ∈ bytesIn cells w, x.1 / 8 = w :=
  fun _ mem => of_decide_eq_true (List.mem_filter.1 mem).2

/-- A piece of a data write, stored where the state in force opens its word. -/
def putPiece (s : State) (w : Nat × List (Nat × Byte)) : State :=
  if ramOpen s (8 * w.1) then { s with ram := s.ram.store w.1 w.2 } else s

theorem ramOpen_putPiece (s : State) (w : Nat × List (Nat × Byte)) (a : Nat) : ramOpen (putPiece s w) a = ramOpen s a := by
  unfold putPiece
  split <;> rfl

section
variable {s : State} {w : Nat} (cells : List (Nat × Byte))

theorem wf_putPiece (wf : s.ram.wf = true) : (putPiece s (w, bytesIn cells w)).ram.wf = true := by
  unfold putPiece
  split
  · exact ram_wf_store _ _ _ (bytesIn_word cells w) wf
  · exact wf

theorem bad_putPiece (sound : w ∉ s.ram.bad) : (putPiece s (w, bytesIn cells w)).ram.bad = s.ram.bad := by
  unfold putPiece
  split
  · exact bad_store _ _ _ sound
  · rfl

theorem read_putPiece (wf : s.ram.wf = true) (sound : w ∉ s.ram.bad) (p : Nat) :
    (putPiece s (w, bytesIn cells w)).ram.read p =
      if p / 8 = w ∧ ramOpen s (8 * w) = true then lastByte cells p (s.ram.read p) else s.ram.read p := by
  unfold putPiece
  by_cases opened : ramOpen s (8 * w) = true
  · rw [if_pos opened, read_store _ _ _ p wf (bytesIn_word cells w) sound]
    by_cases here : p / 8 = w
    · rw [if_pos ⟨here, opened⟩]
      exact lastByte_filter cells w p _ here
    · rw [if_neg fun h => here h.1]
      exact lastByte_none _ _ _ fun x mem e => here (e ▸ bytesIn_word cells w x mem)
  · rw [if_neg opened, if_neg fun h => opened h.2]

end

/-- Pieces of distinct words: each byte takes the last value given to it, if its word is one of them and open. -/
theorem read_putPieces (cells : List (Nat × Byte)) (p : Nat) (ws : List Nat) (distinct : ws.Nodup) (s : State) (wf : s.ram.wf = true)
    (sound : ∀ w ∈ ws, w ∉ s.ram.bad) :
    ((ws.map fun w => (w, bytesIn cells w)).foldl putPiece s).ram.read p =
      if p / 8 ∈ ws ∧ ramOpen s (8 * (p / 8)) = true then lastByte cells p (s.ram.read p) else s.ram.read p := by
  induction ws generalizing s with
  | nil => simp
  | cons w ws ih =>
    obtain ⟨fresh, distinct⟩ := List.nodup_cons.1 distinct
    have soundHere := sound w List.mem_cons_self
    rw [List.map_cons, List.foldl_cons, ih distinct _ (wf_putPiece cells wf) fun v mem =>
      bad_putPiece cells soundHere ▸ sound v (List.mem_cons_of_mem _ mem), ramOpen_putPiece, read_putPiece cells wf soundHere]
    by_cases here : p / 8 = w
    · subst here
      simp [fresh]
    · simp [here]

/-- The stored bytes lie in the words from the first byte's to the last byte's. -/
theorem engWrite_eq (s : State) (a : Nat) (bs : List Byte) : engWrite s a bs =
    ((fromTo (a / 8) ((a + bs.length - 1) / 8)).map fun w => (w, bytesIn (bs.mapIdx fun i b => (a + i, b)) w)).foldl putPiece s := rfl

theorem engineWritesOpenBytes : Part.EngineWritesOpenBytes := by
  intro s a bs p wf nonempty sound
  have length := List.length_pos_of_ne_nil nonempty
  rw [engWrite_eq, read_putPieces _ p _ (nodup_fromTo _ _) s wf fun w mem bad => sound w bad (mem_fromTo.1 mem), lastByte_mapIdx]
  by_cases within : a ≤ p ∧ p < a + bs.length
  · have word : p / 8 ∈ fromTo (a / 8) ((a + bs.length - 1) / 8) := mem_fromTo.2 (by omega)
    simp [within, word]
  · rw [if_neg within, ite_self, if_neg fun h => within ⟨h.1, h.2.1⟩]

/-- Settles O12: a store is read back byte by byte, and a data write is one store for each word that its bytes lie in. -/
theorem memoryWrites : Obligations.MemoryWrites := ⟨errorStaysUntilWritten, engineWritesOpenBytes⟩

end Sys2Proof.OpenWrites
end

section
/-!
SUPPORT. Dispatch from Q0 and Q1 (R148, R191, R194): when a head's waits are met, which contexts a kernel takes, and what an empty queue or a
failing read does.
-/
namespace Sys2Proof.QueueHeads

open Sys2Proof.Machine Sys2Proof.Laws Sys2Proof.Frames

/-! ### Waits and reads -/

/-- The waits of a sync block are met. -/
def Met (s : State) (off : Nat) : Prop :=
  ∀ w ∈ [(syncAt s off).a, (syncAt s off).b], w.active = true → w.target ≤ ((s.exec.cues[w.cue]?).getD 0).toNat

theorem waitMet_iff (s : State) (w : Wait) : waitMet s w = true ↔ (w.active = true → w.target ≤ ((s.exec.cues[w.cue]?).getD 0).toNat) := by
  unfold waitMet
  cases w.active <;> simp

theorem waitsMet_iff (s : State) (off : Nat) : waitsMet s off = true ↔ Met s off := by
  rw [waitsMet, Bool.and_eq_true, waitMet_iff, waitMet_iff]
  simp [Met]

/-- QUEUE_DISPATCH of either queue. -/
theorem exec_queueDispatch (s : State) (soli : Bool) (ups : List Upset) : exec (.queueDispatch ⟨soli, ups⟩) s =
    .next (if (if soli then s.exec.q1 else s.exec.q0) = [] then s else withRomErrors s ups (if soli then dispatchSoli else dispatchTutti)) := by
  cases soli <;> rfl

theorem exec_queueHead {s : State} {soli : Bool} {ups : List Upset} {e : QEntry} {r : List QEntry}
    (head : (if soli then s.exec.q1 else s.exec.q0) = e :: r) (clean : romFailures ups = []) :
    exec (.queueDispatch ⟨soli, ups⟩) s = .next ((if soli then dispatchSoli else dispatchTutti) s) := by
  rw [exec_queueDispatch, if_neg (head ▸ List.cons_ne_nil e r), withRomErrors_none _ _ _ clean]

/-! ### Empty queues and failing reads -/

theorem noDispatch : Part.NoDispatch := by
  intro s soli ups
  rw [exec_queueDispatch]
  exact ⟨fun empty => congrArg _ (if_pos empty), fun waiting fails => ⟨_, congrArg _ (if_neg waiting), withRomErrors_stops s ups _ fails⟩⟩

/-! ### Q0 -/

section
variable {s : State} {e : QEntry} {r : List QEntry} (head : s.exec.q0 = e :: r)
include head

theorem dispatchTutti_goes (goes : Met s (descOff s e.index) ∧ s.exec.tutti.length < 8) :
    dispatchTutti s = { s with exec := { s.exec with q0 := r, tutti := s.exec.tutti ++ [e.index] } } := by
  simp [dispatchTutti, head, waitsMet_iff, goes]

theorem dispatchTutti_stays (stays : ¬(Met s (descOff s e.index) ∧ s.exec.tutti.length < 8)) : dispatchTutti s = s := by
  simp [dispatchTutti, head, waitsMet_iff, stays]

end

theorem dispatchTuttiHead : Part.DispatchTutti := by
  intro s e r ups head clean
  rw [show exec (.queueDispatch ⟨false, ups⟩) s = .next (dispatchTutti s) from exec_queueHead head clean]
  exact ⟨fun met room => congrArg _ (dispatchTutti_goes head ⟨met, room⟩), fun stays => congrArg _ (dispatchTutti_stays head stays)⟩

/-! ### Contexts -/

/-- The contexts of a kernel's sections: each takes its place in the list as its section's number, the others stay. -/
theorem getElem_startSections (op first : Nat) (cs : List Ctx) (distinct : cs.Nodup) (v : Vector (Option Section) 32) :
    let w := (cs.zipIdx first).foldl (fun v c => v.setIfInBounds c.1.val (some (Section.start op c.2))) v
    (∀ (c : Ctx) (k : Nat), cs[k]? = some c → w[c] = some (Section.start op (first + k))) ∧ ∀ c : Ctx, c ∉ cs → w[c] = v[c] := by
  induction cs generalizing first v with
  | nil => simp
  | cons d cs ih =>
    obtain ⟨fresh, distinct⟩ := List.nodup_cons.1 distinct
    obtain ⟨taken, others⟩ := ih (first + 1) distinct (v.setIfInBounds d.val (some (Section.start op first)))
    refine ⟨fun c k place => ?_, fun c away => ?_⟩
    · cases k with
      | zero =>
        obtain rfl : d = c := by simpa using place
        exact (others d fresh).trans (by simp)
      | succ k => exact (taken c k (by simpa using place)).trans (by rw [Nat.add_right_comm, Nat.add_assoc])
    · obtain ⟨ne, away⟩ := not_or.1 (List.mem_cons.not.1 away)
      have apart : d.val ≠ c.val := fun same => ne (Fin.ext same.symm)
      exact (others c away).trans (by simp [apart])

/-! ### Q1 -/

theorem nodup_freeContexts (s : State) (n : Nat) : ((freeContexts s).take n).Nodup :=
  ((List.nodup_finRange 32).filter _).sublist (List.take_sublist n _)

/-- The head of Q1 may go: its waits are met, fewer than 8 operations are in flight, and the engine has a clock (R79). -/
def MayGo (s : State) (e : QEntry) : Prop := Met s (recOff s e.index) ∧ s.exec.soli.length < 8 ∧ stSclk s s.st ≠ 0

theorem mayGo_iff (s : State) (e : QEntry) :
    (waitsMet s (recOff s e.index) && s.exec.soli.length < 8 && stSclk s s.st ≠ 0) = true ↔ MayGo s e := by
  rw [Bool.and_eq_true, Bool.and_eq_true, waitsMet_iff, decide_eq_true_eq, decide_eq_true_eq, and_assoc]
  rfl

section
variable {s : State} {e : QEntry} {r : List QEntry} (head : s.exec.q1 = e :: r)
include head

theorem dispatchSoli_waits (stays : ¬MayGo s e) : dispatchSoli s = s := by
  simp only [dispatchSoli, head]
  exact if_neg ((mayGo_iff s e).not.2 stays)

theorem dispatchSoli_goes (goes : MayGo s e) : dispatchSoli s =
    if recKind s e.index = 0 then
      if recSections s e.index ≤ (freeContexts s).length then
        startKernel { s with exec := { s.exec with q1 := r } } e.index ((freeContexts s).take (recSections s e.index))
      else s
    else if s.exec.soli.any fun o => o.kind = recKind s e.index then s
    else { s with exec := { s.exec with
      q1 := r, soli := s.exec.soli ++ [⟨s.exec.opId, e.index, recKind s e.index, []⟩], opId := s.exec.opId + 1 } } := by
  simp only [dispatchSoli, head]
  exact if_pos ((mayGo_iff s e).2 goes)

end

theorem dispatchSoliHead : Part.DispatchSoli := by
  intro s e r ups head clean
  rw [show exec (.queueDispatch ⟨true, ups⟩) s = .next (dispatchSoli s) from exec_queueHead head clean]
  refine ⟨fun goes kernel room => ?_, fun goes helper idle => ?_, fun kept => congrArg _ ?_⟩
  · replace room : recSections s e.index ≤ (freeContexts s).length := room
    rw [dispatchSoli_goes head goes, if_pos kernel, if_pos room]
    obtain ⟨taken, others⟩ := getElem_startSections s.exec.opId 0 _ (nodup_freeContexts s (recSections s e.index)) s.exec.sections
    exact ⟨_, rfl, rfl, rfl, rfl, rfl, fun c k place => (taken c k place).trans (by rw [Nat.zero_add]), others⟩
  · have noJob : ¬(s.exec.soli.any fun o => o.kind = recKind s e.index) = true := by simpa using idle
    rw [dispatchSoli_goes head goes, if_neg helper, if_neg noJob]
  · by_cases goes : MayGo s e
    · rw [dispatchSoli_goes head goes]
      obtain ⟨met, room, clock⟩ := goes
      obtain waits | full | stopped | ⟨kernel, short⟩ | ⟨helper, o, mem, same⟩ := kept
      · exact absurd met waits
      · exact absurd room (Nat.not_lt.2 full)
      · exact absurd stopped clock
      · rw [if_pos kernel]
        exact if_neg (Nat.not_le.2 short)
      · rw [if_neg helper]
        exact if_pos (List.any_eq_true.2 ⟨o, mem, decide_eq_true same⟩)
    · exact dispatchSoli_waits head goes

/-- Settles O46: the head of a queue goes or stays as its waits and the room say, and a kernel's sections start in the first free contexts. -/
theorem dispatch : Obligations.Dispatch := ⟨dispatchTuttiHead, dispatchSoliHead, noDispatch⟩

end Sys2Proof.QueueHeads
end

section
/-!
SUPPORT. What an action of a ramp does (R94, Tables 04-2 and 04-7): bits of the power domains, the memory of a gated bank, a clock's step, a plane.
-/
namespace Sys2Proof.RampActions

open Sys2Proof.Machine Sys2Proof.Laws

/-! ### Bits -/

theorem getLsbD_ofNat_twoPow {w : Nat} (n b : Nat) (h : b < w) : (BitVec.ofNat w (2 ^ n)).getLsbD b = decide (b = n) := by
  rw [BitVec.getLsbD_ofNat, Nat.testBit_two_pow, decide_eq_true h, Bool.true_and]
  exact decide_eq_decide.2 eq_comm

/-- Setting or clearing bit `n` changes that bit and no other. -/
theorem getLsbD_switch {w : Nat} (x : BitVec w) (up : Bool) (n b : Nat) (h : b < w) :
    (if up then x ||| BitVec.ofNat w (2 ^ n) else x &&& ~~~(BitVec.ofNat w (2 ^ n))).getLsbD b = if b = n then up else x.getLsbD b := by
  cases up
  · rw [if_neg Bool.false_ne_true, BitVec.getLsbD_and, BitVec.getLsbD_not, getLsbD_ofNat_twoPow n b h, decide_eq_true h]
    by_cases here : b = n <;> simp [here]
  · rw [if_pos rfl, BitVec.getLsbD_or, getLsbD_ofNat_twoPow n b h]
    by_cases here : b = n <;> simp [here]

/-! ### Cleared words -/

theorem cellGet_filter (keep : Host.Cell → Bool) (p : Nat) (c : List Host.Cell) (kept : ∀ x ∈ c, x.1 = p → keep x = true) :
    cellGet (c.filter keep) p = cellGet c p := by
  induction c with
  | nil => rfl
  | cons x c ih =>
    obtain ⟨k, v⟩ := x
    have rest := ih fun y mem => kept y (List.mem_cons_of_mem _ mem)
    by_cases here : k = p
    · rw [List.filter_cons_of_pos (kept _ List.mem_cons_self here), cellGet, cellGet, if_pos here, if_pos here]
    · rw [cellGet, if_neg here, ← rest]
      by_cases stays : keep (k, v) = true
      · rw [List.filter_cons_of_pos stays, cellGet, if_neg here]
      · rw [List.filter_cons_of_neg stays]

/-- A cleared word reads zero, every other word as before (R140). -/
theorem read_clear (r : Ram) (q : Nat → Bool) (p : Nat) : (r.clear q).read p = if q (p / 8) = true then 0 else r.read p := by
  have flags : (r.clear q).flags.contains (p / 8) = (r.flags.contains (p / 8) && !q (p / 8)) := by
    rw [Bool.eq_iff_iff]
    simp [Ram.clear]
  have bad : (r.clear q).bad.contains (p / 8) = (r.bad.contains (p / 8) && !q (p / 8)) := by
    rw [Bool.eq_iff_iff]
    simp [Ram.clear]
  unfold Ram.read
  rw [flags, bad]
  cases cleared : q (p / 8)
  · have cells : cellGet (r.clear q).cells p = cellGet r.cells p :=
      cellGet_filter _ p r.cells fun x _ here => by rw [here, cleared]; rfl
    simp [cells]
  · simp

/-! ### Clock steps -/

theorem roundDiv_eq (v : Int) (d : Nat) :
    roundDiv v d = if v < 0 then -(((2 * v.natAbs + d) / (2 * d) : Nat) : Int) else ((2 * v.natAbs + d) / (2 * d) : Nat) := rfl

/-- A rounded quotient is right to half the divisor (R174). -/
theorem roundDiv_within (v : Int) (d : Nat) (pos : 0 < d) : 2 * (roundDiv v d * d - v).natAbs ≤ d := by
  rw [roundDiv_eq]
  have lower := Nat.div_mul_le_self (2 * v.natAbs + d) (2 * d)
  have upper := Nat.lt_div_mul_add (a := 2 * v.natAbs + d) (b := 2 * d) (by omega)
  generalize (2 * v.natAbs + d) / (2 * d) = q at lower upper ⊢
  have double : q * (2 * d) = 2 * (q * d) := by ring
  split
  · rw [Int.neg_mul, ← Int.natCast_mul]
    omega
  · rw [← Int.natCast_mul]
    omega

theorem min_le_roundDiv (v : Int) (d : Nat) (pos : 0 < d) : min v 0 ≤ roundDiv v d := by
  rw [roundDiv_eq]
  split
  · have small : (2 * v.natAbs + d) / (2 * d) ≤ v.natAbs := by
      have grows := Nat.le_mul_of_pos_right v.natAbs pos
      have double : 2 * d * v.natAbs = 2 * (v.natAbs * d) := by ring
      rw [Nat.div_le_iff_le_mul_add_pred (by omega), double]
      omega
    omega
  · exact (min_le_right v 0).trans (Int.natCast_nonneg _)

/-- A step of a clock goes the rest of the way divided by the steps left, rounded to nearest; it does not fall below 0. -/
theorem clockStep_near (now target k : Nat) (lower : 1 ≤ k) (upper : k ≤ 8) :
    2 * (((clockStep now (8 * target) k : Int) - now) * (9 - k) - (8 * target - now)).natAbs ≤ 9 - k := by
  have pos : 0 < 9 - k := by omega
  have floor := min_le_roundDiv ((8 * target : Nat) - now) (9 - k) pos
  have near := roundDiv_within ((8 * target : Nat) - now) (9 - k) pos
  have step : (clockStep now (8 * target) k : Int) - now = roundDiv ((8 * target : Nat) - now) (9 - k) := by
    unfold clockStep
    omega
  rw [step]
  push_cast [show k ≤ 9 by omega] at near ⊢
  exact near

/-! ### Planes -/

theorem planeDown_off (s : State) (p : Plane) : ((planeDown s p).plane p).power = .off ∧ ((planeDown s p).plane p).reading = false := by
  unfold planeDown
  extract_lets t
  split <;> cases p <;> exact ⟨rfl, rfl⟩

theorem planeDown_planes (s : State) (p : Plane) : (planeDown s p).limiter.planes = s.limiter.planes := by
  unfold planeDown
  extract_lets t
  split <;> cases p <;> rfl

/-- With the last plane the LDO goes off. -/
theorem planeDown_ldo {s : State} {p q : Plane} (other : q ≠ p) (off : (s.plane q).power = .off) : (planeDown s p).vpix.ldo = false := by
  unfold planeDown
  extract_lets t
  have both : (t.planeW.power = .off && t.planeH.power = .off) = true := by
    cases p <;> cases q
    case w.h => simp [t, State.setPlane, PlaneState.unpower, show s.planeH.power = .off from off]
    case h.w => simp [t, State.setPlane, PlaneState.unpower, show s.planeW.power = .off from off]
    all_goals exact absurd rfl other
  rw [if_pos both]
  rfl

/-! ### Actions -/

theorem vcore_safePoint (s : State) : (doAction s .vcore).supply.vcore =
    (if 2 ≤ s.limiter.dst.num then 24 else 4) - if s.metro.overScaled then s.codes.rubato.eff.toNat - 7 else 0 := by
  show scaledVcore s (safePoint s.limiter.dst.num) = _
  unfold scaledVcore safePoint
  cases s.metro.overScaled <;> rfl

theorem bank_frame (s : State) (n : Nat) : doAction s (.bank n) = { s with
    blocks := { s.blocks with banks :=
      if s.limiter.up then s.blocks.banks ||| BitVec.ofNat 16 (2 ^ n) else s.blocks.banks &&& ~~~(BitVec.ofNat 16 (2 ^ n)) }
    ram := if s.limiter.up then s.ram else s.ram.clear fun w => 8 * w < heldBase && bankOf (8 * w) = n } := by
  unfold doAction
  dsimp only
  split <;> rfl

theorem bank_effect (s : State) (n : Nat) : ∃ t, doAction s (.bank n) = t
    ∧ t = { s with blocks := { s.blocks with banks := t.blocks.banks }, ram := t.ram }
    ∧ (∀ b, b < 16 → t.blocks.banks.getLsbD b = if b = n then s.limiter.up else s.blocks.banks.getLsbD b)
    ∧ (s.limiter.up = true → t.ram = s.ram)
    ∧ (s.limiter.up = false → s.ram.wf = true → ∀ p,
        t.ram.read p = if 8 * (p / 8) < heldBase ∧ bankOf (8 * (p / 8)) = n then 0 else s.ram.read p) := by
  refine ⟨_, bank_frame s n, rfl, getLsbD_switch _ _ n, fun up => if_pos up, fun down _ p => ?_⟩
  dsimp only
  rw [if_neg (Bool.eq_false_iff.1 down), read_clear]
  simp only [Bool.and_eq_true, decide_eq_true_eq]

/-- A plane that nothing holds off begins its power-up, and the sink draws (R31, R126). -/
theorem plane_starts {s : State} (up : s.limiter.up = true) (held : s.priv.held = false) (led : s.inject 10 = false) (path : s.inject 11 = false)
    (p : Plane) : doAction s (.plane p) = { s.setPlane p { s.plane p with power := .starting } with
      vpix := { s.vpix with sink := true }
      limiter := { s.limiter with planes := s.limiter.planes ++ [p], busy := some p, tried := false } } := by
  have free : ¬(s.inject 10 || s.inject 11) = true := by simp [led, path]
  refine (if_pos up).trans ((if_neg (Bool.eq_false_iff.1 held)).trans ((if_neg free).trans ?_))
  cases p <;> rfl

theorem plane_heldOff {s : State} (up : s.limiter.up = true) (held : s.priv.held = true) (p : Plane) : doAction s (.plane p) = { s with
    limiter := { s.limiter with planes := s.limiter.planes ++ [p] }, priv := { s.priv with byPriv := s.priv.byPriv || s.priv.asserted } } := by
  exact (if_pos up).trans (if_pos held)

theorem plane_down {s : State} (down : s.limiter.up = false) (p : Plane) : doAction s (.plane p) =
    planeDown { s with limiter := { s.limiter with planes := s.limiter.planes.filter (· ≠ p) } } p := by
  exact if_neg (Bool.eq_false_iff.1 down)

theorem actionEffects : Part.ActionEffects := by
  intro s
  refine ⟨⟨rfl, vcore_safePoint s⟩, fun n _ => bank_effect s n, rfl, fun k lower upper => ?_, fun n _ => ⟨_, rfl, rfl, getLsbD_switch _ _ n⟩, fun p => ?_⟩
  · exact ⟨_, _, rfl, clockStep_near _ _ k lower upper, rfl, clockStep_near _ _ k lower upper⟩
  · refine ⟨fun up held led path => plane_starts up held led path p, fun up held => plane_heldOff up held p, fun down => ?_⟩
    rw [plane_down down p]
    obtain ⟨power, reading⟩ := planeDown_off { s with limiter := { s.limiter with planes := s.limiter.planes.filter (· ≠ p) } } p
    exact ⟨_, rfl, power, reading, planeDown_planes _ p, fun q other off => planeDown_ldo other off⟩

end Sys2Proof.RampActions
end

section
/-!
SUPPORT. One tick of the limiter (R94): which actions of the list it performs, and what is left of the ramp.
-/
namespace Sys2Proof.RampTicks

open Sys2Proof.Machine Sys2Proof.Laws Sys2Proof.Guards Sys2Proof.Phases Sys2Proof.RampActions

/-! ### What an action leaves of the ramp -/

/-- `s` with its ramp at action `k` and the actions `acts` still to come. -/
def withRamp (s : State) (k : Nat) (acts : List Machine.Action) : State := { s with limiter := { s.limiter with k := k, acts := acts } }

/-- `s` with the planes `ps` as those that its ramp has powered. -/
def withPlanes (s : State) (ps : List Plane) : State := { s with limiter := { s.limiter with planes := ps } }

/-- Of the limiter no more than the planes' fields has changed. -/
def SameRamp (s t : State) : Prop :=
  t.limiter = { s.limiter with planes := t.limiter.planes, busy := t.limiter.busy, tried := t.limiter.tried }

theorem SameRamp.trans {s t u : State} (a : SameRamp s t) (b : SameRamp t u) : SameRamp s u := by
  unfold SameRamp at *
  rw [b, a]

theorem SameRamp.ite {s a b : State} {c : Prop} [Decidable c] (x : SameRamp s a) (y : SameRamp s b) : SameRamp s (if c then a else b) := by
  split
  · exact x
  · exact y

theorem ite_withRamp {a a' b b' : State} {k : Nat} {acts : List Machine.Action} {c : Prop} [Decidable c] (x : a' = withRamp a k acts)
    (y : b' = withRamp b k acts) : (if c then a' else b') = withRamp (if c then a else b) k acts := by
  split
  · exact x
  · exact y

section
variable (s : State) (k : Nat) (acts : List Machine.Action)

theorem planeDown_withRamp (p : Plane) : planeDown (withRamp s k acts) p = withRamp (planeDown s p) k acts := by
  cases p <;> exact ite_withRamp rfl rfl

theorem refusePower_withRamp : refusePower (withRamp s k acts) = withRamp (refusePower s) k acts := by
  have tripped (d : Nat) (again : Bool) : (if again then withRamp s k acts else trip (withRamp s k acts) d true 0)
      = withRamp (if again then s else trip s d true 0) k acts := ite_withRamp rfl rfl
  exact ite_withRamp (congrArg (fun u : State => { u with priv := { u.priv with byLed := true } }) (tripped 10 s.priv.byLed))
    (congrArg (fun u : State => { u with priv := { u.priv with byPath := true } }) (tripped 11 s.priv.byPath))

/-- No action reads or moves the ramp's progress. -/
theorem doAction_withRamp (a : Machine.Action) : doAction (withRamp s k acts) a = withRamp (doAction s a) k acts := by
  cases a with
  | vcore => rfl
  | bank n => exact ite_withRamp rfl rfl
  | held => rfl
  | tutti k => rfl
  | soli k => rfl
  | cluster n => rfl
  | plane p =>
    refine ite_withRamp (ite_withRamp rfl (ite_withRamp (refusePower_withRamp (withPlanes s (s.limiter.planes ++ [p])) k acts) ?_))
      (planeDown_withRamp (withPlanes s (s.limiter.planes.filter (· ≠ p))) k acts p)
    cases p <;> rfl

end

theorem sameRamp_planeDown (s : State) (p : Plane) : SameRamp s (planeDown s p) := by
  cases p <;> exact .ite rfl rfl

theorem sameRamp_refusePower (s : State) : SameRamp s (refusePower s) := by
  unfold refusePower
  exact .ite (.ite rfl rfl) (.ite rfl rfl)

/-- No action moves what the thresholds are computed from. -/
theorem sameRamp_doAction (s : State) (a : Machine.Action) : SameRamp s (doAction s a) := by
  cases a with
  | vcore => rfl
  | bank n => exact .ite rfl rfl
  | held => rfl
  | tutti k => rfl
  | soli k => rfl
  | cluster n => rfl
  | plane p =>
    have refused : SameRamp s (refusePower (withPlanes s (s.limiter.planes ++ [p]))) :=
      SameRamp.trans (t := withPlanes s _) rfl (sameRamp_refusePower _)
    have down : SameRamp s (planeDown (withPlanes s (s.limiter.planes.filter (· ≠ p))) p) :=
      SameRamp.trans (t := withPlanes s _) rfl (sameRamp_planeDown _ p)
    refine .ite (.ite rfl (.ite refused ?_)) down
    cases p <;> rfl

theorem sameRamp_foldl (l : List Machine.Action) (s : State) : SameRamp s (l.foldl doAction s) := by
  induction l generalizing s with
  | nil => rfl
  | cons a l ih => exact (sameRamp_doAction s a).trans (ih _)

theorem foldl_withRamp (l : List Machine.Action) (s : State) (k : Nat) (acts : List Machine.Action) :
    l.foldl doAction (withRamp s k acts) = withRamp (l.foldl doAction s) k acts := by
  induction l generalizing s with
  | nil => rfl
  | cons a l ih => rw [List.foldl_cons, List.foldl_cons, doAction_withRamp, ih]

/-! ### Thresholds -/

/-- The ramp has zero height, or goes against its direction. -/
def Flat (l : Limiter) : Prop := if l.up then l.iNew ≤ l.iOld else l.iOld ≤ l.iNew

/-- The threshold of the action `j` places after the next one is reached, of `n` actions in all. -/
def DueAt (l : Limiter) (n j : Nat) : Prop := Limiter.reached { l with k := l.k + j } n = true

theorem dueAt_iff (l : Limiter) (n j : Nat) : DueAt l n j ↔ Flat l ∨
    if l.up then l.iOld * n + (l.iNew - l.iOld) * (l.k + j + 1) ≤ l.allow * n else l.allow * n ≤ l.iOld * n + (l.iNew - l.iOld) * (l.k + j + 1) := by
  unfold DueAt Limiter.reached
  rw [Bool.or_eq_true, decide_eq_true_eq]
  refine or_congr_right ?_
  cases l.up
  · simp
  · simp

/-- An action leaves the thresholds where they are. -/
theorem dueAt_doAction (s : State) (a : Machine.Action) (acts : List Machine.Action) (n j : Nat) :
    DueAt (withRamp (doAction s a) (s.limiter.k + 1) acts).limiter n j ↔ DueAt s.limiter n (j + 1) := by
  obtain ⟨planes, busy, tried, same⟩ : ∃ planes busy tried, (doAction s a).limiter = { s.limiter with planes := planes, busy := busy, tried := tried } :=
    ⟨_, _, _, sameRamp_doAction s a⟩
  unfold withRamp
  rw [same, dueAt_iff, dueAt_iff]
  simp only [Flat, Nat.cast_add, Nat.cast_one, add_assoc, add_comm (1 : Int)]

theorem stopped_iff (l : Limiter) (n : Nat) : (l.busy.isSome || !l.reached n) = true ↔ ¬(DueAt l n 0 ∧ l.busy = none) := by
  rw [Bool.or_eq_true, Bool.not_eq_true', ← Bool.not_eq_true, Option.isSome_iff_ne_none, or_comm, not_and_or]
  rfl

/-- Of the list `acts` of a ramp of `n` actions, a tick performs the first `m`: all that are due, each after the one before it is done. -/
structure Performs (s : State) (acts : List Machine.Action) (n m : Nat) : Prop where
  le : m ≤ acts.length
  done : ∀ j, j < m → DueAt s.limiter n j ∧ ((acts.take j).foldl doAction s).limiter.busy = none
  stops : m < acts.length → ¬DueAt s.limiter n m ∨ ((acts.take m).foldl doAction s).limiter.busy ≠ none

theorem runActs_performs (acts : List Machine.Action) (n : Nat) (s : State) (list : s.limiter.acts = acts) :
    ∃ m, Performs s acts n m ∧ runActs acts n s = withRamp ((acts.take m).foldl doAction s) (s.limiter.k + m) (acts.drop m) := by
  induction acts generalizing s with
  | nil => exact ⟨0, ⟨Nat.le_refl _, fun j lt => absurd lt (Nat.not_lt_zero j), fun lt => absurd lt (Nat.lt_irrefl 0)⟩, congrArg (withRamp s s.limiter.k) list⟩
  | cons a acts ih =>
    by_cases stop : (s.limiter.busy.isSome || !s.limiter.reached n) = true
    · refine ⟨0, ⟨Nat.zero_le _, fun j lt => absurd lt (Nat.not_lt_zero j), fun _ => not_and_or.1 ((stopped_iff _ _).1 stop)⟩, ?_⟩
      rw [runActs, if_pos stop, List.drop_zero, ← list]
      rfl
    · obtain ⟨m, ⟨le, done, stops⟩, result⟩ := ih (withRamp (doAction s a) (s.limiter.k + 1) acts) rfl
      have after (j : Nat) : ((acts.take j).foldl doAction (withRamp (doAction s a) (s.limiter.k + 1) acts)).limiter.busy
          = (((a :: acts).take (j + 1)).foldl doAction s).limiter.busy := by rw [foldl_withRamp]; rfl
      refine ⟨m + 1, ⟨Nat.succ_le_succ le, fun j lt => ?_, fun lt => ?_⟩, ?_⟩
      · cases j with
        | zero => exact not_not.1 ((stopped_iff _ _).not.1 stop)
        | succ j =>
          rw [← dueAt_doAction s a acts, ← after]
          exact done j (Nat.lt_of_succ_lt_succ lt)
      · rw [← dueAt_doAction s a acts, ← after]
        exact stops (Nat.lt_of_succ_lt_succ lt)
      · rw [runActs, if_neg stop]
        refine result.trans ?_
        rw [foldl_withRamp]
        show withRamp _ (s.limiter.k + 1 + m) _ = _
        rw [Nat.add_right_comm]
        rfl

/-! ### The allowance -/

section
variable (l : Limiter) (slew : Option Int)

theorem move_flat (flat : Flat l) : l.move slew = l.iOld := if_pos flat

theorem move_up (steep : ¬Flat l) (below : l.allow < l.iNew) :
    l.move slew = match slew with
      | none => l.iNew
      | some d => min l.iNew (l.allow + d) := by
  refine (if_neg steep).trans ?_
  cases slew with
  | none => rfl
  | some d => exact if_pos below

theorem move_down (steep : ¬Flat l) (reached : l.iNew ≤ l.allow) :
    l.move slew = match slew with
      | none => l.iNew
      | some d => max l.iNew (l.allow - d) := by
  refine (if_neg steep).trans ?_
  cases slew with
  | none => rfl
  | some d => exact if_neg (Int.not_lt.2 reached)

end

/-! ### The end of a ramp -/

/-- The ramp's last action is done. -/
def Done (u : State) : Prop := u.limiter.acts = [] ∧ u.limiter.busy = none

/-- What a tick leaves once the due actions have been performed. -/
def endTick (u : State) : State :=
  if u.limiter.acts = [] && u.limiter.busy.isNone then
    let v := { u with limiter := { u.limiter with on := false } }
    if v.cond.phase = .tacetEntry 5 then finishStep5 v else v
  else u

section
variable {u : State}

theorem done_iff : (u.limiter.acts = [] && u.limiter.busy.isNone) = true ↔ Done u := by
  rw [Bool.and_eq_true, decide_eq_true_eq, Option.isNone_iff_eq_none]
  rfl

theorem endTick_goesOn (unfinished : ¬Done u) : endTick u = u := if_neg (done_iff.not.2 unfinished)

theorem endTick_ends (done : Done u) (phase : u.cond.phase ≠ .tacetEntry 5) : endTick u = { u with limiter := { u.limiter with on := false } } :=
  (if_pos (done_iff.2 done)).trans (if_neg phase)

/-- With the ramp of Tacet entry its step 5 ends (Table 04-6). -/
theorem endTick_step5 (done : Done u) (phase : u.cond.phase = .tacetEntry 5) : endTick u = { u with
    limiter := { u.limiter with on := false }, blocks := Blocks.off, ram := Ram.empty, cond := { u.cond with phase := .tacetEntry 4 } } :=
  (if_pos (done_iff.2 done)).trans (if_pos phase)

theorem endTick_elsewhere (h : ¬Done u ∨ u.cond.phase ≠ .tacetEntry 5) : endTick u = { u with limiter := (endTick u).limiter } := by
  by_cases done : Done u
  · rw [endTick_ends done (h.resolve_left (not_not_intro done))]
  · rw [endTick_goesOn done]

/-- The end of a ramp changes its flag, and in Tacet entry the gated domains. -/
theorem endTick_frame (u : State) : (endTick u).limiter = { u.limiter with on := (endTick u).limiter.on }
    ∧ (endTick u).vpix = u.vpix ∧ (endTick u).aon = u.aon := by
  unfold endTick
  extract_lets v
  split
  · split <;> exact ⟨rfl, rfl, rfl⟩
  · exact ⟨rfl, rfl, rfl⟩

theorem endTick_on (runs : u.limiter.on = true) : (endTick u).limiter.on = false ↔ Done u := by
  by_cases done : Done u
  · by_cases phase : u.cond.phase = .tacetEntry 5
    · rw [endTick_step5 done phase]
      exact iff_of_true rfl done
    · rw [endTick_ends done phase]
      exact iff_of_true rfl done
  · rw [endTick_goesOn done]
    exact iff_of_false (runs ▸ Bool.noConfusion) done

end

/-! ### LIMITER_TICK -/

/-- `s` with the allowance that a tick leaves. -/
def ticked (s : State) : State := { s with limiter := { s.limiter with allow := s.limiter.move (slewStep s.boot.slew) } }

/-- `s` after the first `m` actions of its list, at the allowance of the tick. -/
def acted (s : State) (m : Nat) : State := (s.limiter.acts.take m).foldl doAction (ticked s)

/-- `s` after a tick has performed the first `m` actions of its list. -/
def performed (s : State) (m : Nat) : State := withRamp (acted s m) (s.limiter.k + m) (s.limiter.acts.drop m)

theorem exec_limiterTick {s : State} (on : s.limiter.on = true) (runs : s.limiter.paused = false) :
    ∃ m, Performs (ticked s) s.limiter.acts (s.limiter.k + s.limiter.acts.length) m ∧ exec .limiterTick s = .next (endTick (performed s m)) := by
  obtain ⟨m, performs, result⟩ := runActs_performs s.limiter.acts (s.limiter.k + s.limiter.acts.length) (ticked s) rfl
  refine ⟨m, performs, ?_⟩
  replace result : _ = performed s m := result
  rw [← result]
  show execLimiterTick s = _
  unfold execLimiterTick endTick
  dsimp only
  rw [if_neg (by simp [on, runs])]
  exact (apply_ite _ _ _ _).symm

section
variable (s : State) (m : Nat)

theorem calm_acted : Calm (ticked s) (acted s m) := (Calm.refl _).foldl doAction _ fun _ a _ calm => calm_doAction calm a

theorem phase_acted : (acted s m).cond.phase = s.cond.phase :=
  SamePhase.foldl doAction (s.limiter.acts.take m) samePhase_doAction (.refl (ticked s))

theorem sameRamp_acted : SameRamp (ticked s) (acted s m) := sameRamp_foldl _ _

theorem done_performed (le : m ≤ s.limiter.acts.length) : Done (performed s m) ↔ m = s.limiter.acts.length ∧ (acted s m).limiter.busy = none :=
  and_congr_left' (List.drop_eq_nil_iff.trans ⟨le.antisymm, Eq.ge⟩)

end

theorem tickActs : Part.TickActs := by
  intro s on runs
  obtain ⟨m, ⟨le, done, stops⟩, tick⟩ := exec_limiterTick on runs
  obtain ⟨limiter, vpix, aon⟩ := endTick_frame (performed s m)
  have ends := endTick_on (u := performed s m) ((congrArg Limiter.on (sameRamp_acted s m)).trans on)
  have due (j : Nat) := dueAt_iff (ticked s).limiter (s.limiter.k + s.limiter.acts.length) j
  refine ⟨_, s.limiter.move (slewStep s.boot.slew), m, tick, (congrArg Vpix.closed vpix).trans (calm_acted s m).closed,
    (congrArg Aon.tokens aon).trans (calm_acted s m).tokens, (congrArg Limiter.allow limiter).trans (congrArg Limiter.allow (sameRamp_acted s m)),
    move_flat _ _, move_up _ _, move_down _ _, le, fun j lt => (done j lt).imp_left (due j).1, fun lt => (stops lt).imp_left (mt (due m).2),
    ends.trans (done_performed s m le), limiter, fun h => ?_, fun off step5 => ?_⟩
  · refine endTick_elsewhere (h.imp (fun runs finished => ?_) fun other => (phase_acted s m).trans_ne other)
    exact Bool.false_ne_true ((ends.2 finished).symm.trans runs)
  · rw [endTick_step5 (ends.1 off) ((phase_acted s m).trans step5)]
    rfl

/-- Settles O31: a tick performs the actions that are due, one after the other, and no action moves the ramp that they are due by. -/
theorem limiterTick : Obligations.LimiterTick := ⟨tickActs, actionEffects⟩

end Sys2Proof.RampTicks
end
